-- ==== Sys2Proof/Word.lean ====
section
/-! DEFINITION. The word types of the WL810 (spec/00_scope.md, Conventions; spec/09, R189). -/

namespace Sys2Proof

/-- One byte: a character value, a payload byte, a byte of the array or of capture memory. -/
abbrev Byte := BitVec 8

/-- A 16-bit number: sequence numbers, incident ids, CRC-16 values, sets of match entries. -/
abbrev Half := BitVec 16

/-- A 32-bit number: serials, sector sequences, wrapping counters, durations in µs. -/
abbrev Word := BitVec 32

/-- A 48-bit count of µs: time of day, elapsed count, start and trigger times (R191, R192). -/
abbrev Stamp := BitVec 48

end Sys2Proof
end

