-- ==== Sys2Proof/Config.lean ====
section
/-! DEFINITION. The fixed figures of the part (spec/00_scope.md, Key figures) and the free values: what the
manual leaves open is an opaque constant here, so that no proof can lean on one value of it. -/

namespace Sys2Proof.Config

/-- Pages of capture memory (R25). -/
def pageCount : Nat := 1024
/-- Bytes of one page (R25). -/
def pageSize : Nat := 64
/-- Frame slots (R26). -/
def slotCount : Nat := 1024
/-- Bytes of one sector (R97). -/
def sectorSize : Nat := 32768
/-- Offset of a sector's body (R119). -/
def bodyStart : Nat := 64
/-- Bytes of one program block (R97). -/
def blockSize : Nat := 256
/-- Entries the record index can hold (R123). -/
def indexCapacity : Nat := 1024
/-- Items the host work list can hold (R109). -/
def workCapacity : Nat := 8
/-- Requests the request queue can hold (R178). -/
def requestCapacity : Nat := 4
/-- Notices the notice queue can hold (R182). -/
def noticeCapacity : Nat := 16
/-- Largest payload of an envelope (R173). -/
def maxPayload : Nat := 1200
/-- Byte budget of an incident's frame list (R77): 32 704 - 64 - 16. -/
def byteBudget : Nat := 32624
/-- Bytes a READ_RECORD reply gives to reported frame entries (R166). -/
def readBudget : Nat := 1150
/-- The interval between two accepted TRIG_IN edges, in µs (R62). -/
def edgeSpacing : Nat := 10
/-- The inter-byte timeout of the host link, in µs (R176). -/
def interByteLimit : Nat := 1000
/-- The longest time of a program unit, in µs (R98). -/
def programLimit : Nat := 3000
/-- The longest active time of an erase, in µs (R99). -/
def eraseLimit : Nat := 250000

/-- The host link rate in bit/s that a strap code SEL1 SEL0 selects (spec/00_scope.md, Pins). -/
def linkRate (straps : BitVec 2) : Nat :=
  match straps.toNat with
  | 0 => 115200
  | 1 => 460800
  | 2 => 921600
  | _ => 1000000

/-- FREE VALUE. What a byte whose contents the manual calls undefined holds: page memory after a hard
reset (R47), a sector after an interrupted or failed erase (R99), the bits an interrupted program unit did or
did not clear (R98). The first argument is a fresh key, the second the offset. -/
opaque freeByte : Nat → Nat → Byte

/-- FREE VALUE. Which of the two is taken first when one event both places a reply and queues notices while
the transmitter is idle (R184): true, the reply. -/
opaque replyFirst : Nat → Bool

/-- FREE VALUE. Whether a presence byte other than 0 and 1 counts as present (R189 gives 0 and 1 only). -/
opaque oddPresence : Byte → Bool

/-- FREE VALUE. The index VERIFY_RECORD reports for a walk in which every entry is sound and the last does
not end at the end marker (R165, R168 name no index for it); the argument is the frame count. -/
opaque walkEndIndex : Nat → Half

/-- FREE VALUE. The next sector sequence after FFFFFFFFh, which is 32-bit and has neither a wrap nor an end in the
manual (R127, R147, log 37). -/
opaque sequenceAfterLast : Word

end Sys2Proof.Config
end

