-- ==== Sys2Proof/Syntax.lean ====
section
/-! DEFINITION. The commands of the WL810: one constructor of `Instr` per row of spec/opcode_table.json.

Two kinds of row. An EVENT is something that happens at a pin, a timer, the array or the match unit; its
operands say what the outside gives (a character's bits, the cells an array operation left). A REQUEST row
carries the request's TAG and its arguments, each as the payload holds it (R188, R189), so that every value a
payload can hold, out of range ones included, can be written down. -/

namespace Sys2Proof

/-- The configuration fields of CONFIGURE_LINE as its payload carries them (R22, R189): 19 bytes. -/
structure LineArg where
  divisor     : Half
  dataBits    : Byte
  parity      : Byte
  stopBits    : Byte
  mode        : Byte
  idleTime    : Byte
  startByte   : Byte
  endByte     : Byte
  escapeByte  : Byte
  lenOffset   : Byte
  addend      : Byte
  check       : Byte
  maxLength   : Half
  keepBad     : Byte
  policy      : Byte
  depth       : Byte
  sheddable   : Byte
  deriving DecidableEq, Repr

/-- The definition of a match entry as WRITE_ENTRY carries it and READ_ENTRY reports it (R48, R66): 67 bytes.
Carried fields keep whatever was written, so every field keeps its payload width. -/
structure EntryDef where
  kind        : Byte
  enabled     : Byte
  lineSet     : Byte
  status      : Byte
  lenMin      : Half
  lenMax      : Half
  offset      : Half
  width       : Byte
  pattern     : BitVec 128
  byteMask    : BitVec 128
  sense       : Byte
  span        : Byte
  spanMask    : BitVec 64
  digest      : Half
  afterOn     : Byte
  afterEntry  : Byte
  afterWindow : Half
  action      : Byte
  holdoff     : Half
  captureSet  : Byte
  preCount    : Byte
  postCount   : Byte
  postTime    : Half
  deriving DecidableEq, Repr

/-- The commands, in the order of spec/opcode_table.json. -/
inductive Instr where
  /-- HARD_RESET (R140): power-on or RST_N, with the levels of SEL1 and SEL0. -/
  | hardReset (straps : BitVec 2)
  /-- RESTART_TAKES_EFFECT (R185). -/
  | restartTakesEffect
  /-- CHARACTER_COMPLETION (R1): the eight bits sampled, least significant first (bit 7 unused with 7 data
  bits), the parity bit (unused with parity NONE) and the level of the first stop bit. -/
  | characterCompletion (line : Fin 8) (bits : Byte) (parityBit : Bool) (stopHigh : Bool)
  /-- IDLE_TIMER_EXPIRY (R3). -/
  | idleTimerExpiry (line : Fin 8)
  /-- CLASSIFICATION (R56) of the oldest frame of the line that awaits it. -/
  | classification (line : Fin 8)
  /-- TRIG_IN_RISING_EDGE (R62). -/
  | trigInRisingEdge
  /-- TRIG_IN_EDGE_ACCEPTED (R63): the pin has stayed high for 1 µs. -/
  | trigInEdgeAccepted
  /-- HOLDOFF_EXPIRY (R61). -/
  | holdoffExpiry (entry : Fin 16)
  /-- POST_TIMER_EXPIRY (R80) of the incident in the slot. -/
  | postTimerExpiry (slot : Fin 4)
  /-- HOST_BYTE_RECEIVED (R174): a byte, or none for a broken byte (R172). -/
  | hostByteReceived (byte : Option Byte)
  /-- INTER_BYTE_TIMEOUT (R176). -/
  | interByteTimeout
  /-- TX_FRAME_END (R184). -/
  | txFrameEnd
  /-- PROGRAM_UNIT_END (R98): the values the cells were driven to, byte by byte; bytes not listed took the
  value written. A cell's bit only falls (R97). -/
  | programUnitEnd (cells : List Byte)
  /-- PROGRAM_UNIT_TIMEOUT (R98): the values the cells were driven to; bytes not listed kept theirs. -/
  | programUnitTimeout (cells : List Byte)
  /-- ERASE_END (R105): whether the erase verify finds every byte FFh (R99). -/
  | eraseEnd (blank : Bool)
  /-- ERASE_TIMEOUT (R99). -/
  | eraseTimeout
  /-- ARRAY_READ_DONE (R167). -/
  | arrayReadDone
  /-- SCAN_FINISH (R149). -/
  | scanFinish
  /-- UNKNOWN_REQUEST (R179). -/
  | unknownRequest (tag : Byte) (payload : List Byte)
  /-- IDENTIFY (R194). -/
  | identify (tag : Byte)
  /-- GET_STATUS (R195). -/
  | getStatus (tag : Byte)
  /-- SET_TIME (R193). -/
  | setTime (tag : Byte) (time : Stamp)
  /-- SET_NOTICE_MASK (R197). -/
  | setNoticeMask (tag : Byte) (kinds : Half) (lines : Byte)
  /-- CLEAR_FAULTS (R198). -/
  | clearFaults (tag : Byte)
  /-- RESTART (R199). -/
  | restart (tag : Byte)
  /-- CONFIGURE_LINE (R21). -/
  | configureLine (tag : Byte) (line : Byte) (cfg : LineArg)
  /-- START_LINE (R16), with the level of the tap pin at the acceptance (R4). -/
  | startLine (tag : Byte) (line : Byte) (pinHigh : Bool)
  /-- STOP_LINE (R17). -/
  | stopLine (tag : Byte) (line : Byte)
  /-- GET_LINE_COUNTS (R23). -/
  | getLineCounts (tag : Byte) (line : Byte) (clear : Byte)
  /-- SET_POOL_MARK (R45). -/
  | setPoolMark (tag : Byte) (mark : Half)
  /-- WRITE_ENTRY (R65). -/
  | writeEntry (tag : Byte) (entry : Byte) (body : EntryDef)
  /-- READ_ENTRY (R67). -/
  | readEntry (tag : Byte) (entry : Byte)
  /-- CLEAR_ENTRY (R68). -/
  | clearEntry (tag : Byte) (entry : Byte)
  /-- FORCE_TRIGGER (R79). -/
  | forceTrigger (tag : Byte) (entry : Byte)
  /-- LIST_INCIDENTS (R94). -/
  | listIncidents (tag : Byte)
  /-- CLOSE_INCIDENT (R87). -/
  | closeIncident (tag : Byte) (id : Half)
  /-- CANCEL_INCIDENT (R88). -/
  | cancelIncident (tag : Byte) (id : Half)
  /-- LIST_FRAMES (R153): line, list, presence byte and value of the after-sequence, maximum count. -/
  | listFrames (tag : Byte) (line : Byte) (list : Byte) (present : Byte) (after : Half) (max : Byte)
  /-- READ_FRAME (R155). -/
  | readFrame (tag : Byte) (line : Byte) (seq : Half)
  /-- TAKE_FRAMES (R157). -/
  | takeFrames (tag : Byte) (line : Byte) (count : Byte)
  /-- RELEASE_FRAMES (R158). -/
  | releaseFrames (tag : Byte) (line : Byte) (seq : Half)
  /-- GET_STORE_STATUS (R116). -/
  | getStoreStatus (tag : Byte)
  /-- SET_STORE_POLICY (R113). -/
  | setStorePolicy (tag : Byte) (policy : Byte)
  /-- SET_PROTECTION (R112). -/
  | setProtection (tag : Byte) (sector : Byte) (level : Byte)
  /-- ERASE_SECTOR (R110). -/
  | eraseSector (tag : Byte) (sector : Byte)
  /-- LIST_RECORDS (R163): first serial, sector filter, maximum count. -/
  | listRecords (tag : Byte) (first : Word) (filter : Byte) (max : Byte)
  /-- READ_RECORD (R164): serial, first entry index. -/
  | readRecord (tag : Byte) (serial : Word) (first : Half)
  /-- VERIFY_RECORD (R168). -/
  | verifyRecord (tag : Byte) (serial : Word)
  /-- DISCARD_RECORD (R137). -/
  | discardRecord (tag : Byte) (serial : Word)
  /-- START_BIT (R3): the level of the pin at mid-bit (high: a false start, R1). -/
  | startBit (line : Fin 8) (lowAtMid : Bool)
  /-- PIN_SAMPLED_HIGH (R2). -/
  | pinSampledHigh (line : Fin 8)
  deriving DecidableEq, Repr

/-- A request as the request queue holds it: its TAG and its payload as received (R178). -/
structure Req where
  tag     : Byte
  payload : List Byte
  deriving DecidableEq, Repr

end Sys2Proof
end

