-- ==== Sys2Proof/Decode.lean ====
section
/-! DEFINITION. Payload bytes: the byte order and the field order of requests (R188, R189), a request row as its
payload and a payload as its request row; and `decodeTableWord`. No row of spec/opcode_table.json gives bits, so
`decodeTableWord` answers none. -/

namespace Sys2Proof

/-- The `k` low bytes of a number, least significant first (R189, spec/00 Conventions). -/
def leBytes : Nat → Nat → List Byte
  | 0, _ => []
  | k + 1, n => BitVec.ofNat 8 n :: leBytes k (n / 256)

/-- The number that bytes hold, least significant first. -/
def leNat : List Byte → Nat
  | [] => 0
  | b :: bs => b.toNat + 256 * leNat bs

/-- A bit vector of `8 * k` bits as its `k` bytes. -/
def encLE (k : Nat) (x : BitVec (8 * k)) : List Byte := leBytes k x.toNat

/-- The bit vector that the first `k` bytes hold. -/
def decLE (k : Nat) (p : List Byte) : BitVec (8 * k) := BitVec.ofNat (8 * k) (leNat (p.take k))

/-- A CRC value, high byte first (R189). -/
def crcBytes (c : Half) : List Byte := [c.extractLsb' 8 8, c.extractLsb' 0 8]

/-- The argument length of each request code (R188); none for a code that is no request. -/
def argLength (code : Byte) : Option Nat :=
  match code.toNat with
  | 0x01 => some 0 | 0x02 => some 0 | 0x03 => some 6 | 0x04 => some 3 | 0x05 => some 0 | 0x06 => some 0
  | 0x10 => some 20 | 0x11 => some 1 | 0x12 => some 1 | 0x13 => some 2 | 0x14 => some 2
  | 0x20 => some 68 | 0x21 => some 1 | 0x22 => some 1
  | 0x30 => some 1 | 0x31 => some 0 | 0x32 => some 2 | 0x33 => some 2
  | 0x40 => some 6 | 0x41 => some 3 | 0x42 => some 2 | 0x43 => some 3
  | 0x50 => some 0 | 0x51 => some 1 | 0x52 => some 2 | 0x53 => some 1
  | 0x54 => some 6 | 0x55 => some 6 | 0x56 => some 4 | 0x57 => some 4
  | _ => none

/-- The first checks of the request handler (R179): not empty, a known code, the exact length. -/
def payloadKnown (p : List Byte) : Bool :=
  match p with
  | [] => false
  | code :: rest => argLength code == some rest.length

/-- The line configuration fields in the order of R22. -/
def LineArg.bytes (c : LineArg) : List Byte :=
  encLE 2 c.divisor ++ [c.dataBits, c.parity, c.stopBits, c.mode, c.idleTime, c.startByte, c.endByte,
    c.escapeByte, c.lenOffset, c.addend, c.check] ++ encLE 2 c.maxLength
    ++ [c.keepBad, c.policy, c.depth, c.sheddable]

/-- The entry definition fields in the order of R66, from kind on. -/
def EntryDef.bytes (e : EntryDef) : List Byte :=
  [e.kind, e.enabled, e.lineSet, e.status] ++ encLE 2 e.lenMin ++ encLE 2 e.lenMax ++ encLE 2 e.offset
    ++ [e.width] ++ encLE 16 e.pattern ++ encLE 16 e.byteMask ++ [e.sense, e.span] ++ encLE 8 e.spanMask
    ++ crcBytes e.digest ++ [e.afterOn, e.afterEntry] ++ encLE 2 e.afterWindow ++ [e.action]
    ++ encLE 2 e.holdoff ++ [e.captureSet, e.preCount, e.postCount] ++ encLE 2 e.postTime

/-- The byte of a payload at a position. -/
def byteAt (p : List Byte) (i : Nat) : Byte := p.getD i 0

/-- The CRC value at a position, high byte first. -/
def crcAt (p : List Byte) (i : Nat) : Half := byteAt p i ++ byteAt p (i + 1)

/-- The line configuration that 19 bytes hold. -/
def LineArg.parse (p : List Byte) : LineArg :=
  { divisor := decLE 2 p, dataBits := byteAt p 2, parity := byteAt p 3, stopBits := byteAt p 4,
    mode := byteAt p 5, idleTime := byteAt p 6, startByte := byteAt p 7, endByte := byteAt p 8,
    escapeByte := byteAt p 9, lenOffset := byteAt p 10, addend := byteAt p 11, check := byteAt p 12,
    maxLength := decLE 2 (p.drop 13), keepBad := byteAt p 15, policy := byteAt p 16, depth := byteAt p 17,
    sheddable := byteAt p 18 }

/-- The entry definition that 67 bytes hold. -/
def EntryDef.parse (p : List Byte) : EntryDef :=
  { kind := byteAt p 0, enabled := byteAt p 1, lineSet := byteAt p 2, status := byteAt p 3,
    lenMin := decLE 2 (p.drop 4), lenMax := decLE 2 (p.drop 6), offset := decLE 2 (p.drop 8),
    width := byteAt p 10, pattern := decLE 16 (p.drop 11), byteMask := decLE 16 (p.drop 27),
    sense := byteAt p 43, span := byteAt p 44, spanMask := decLE 8 (p.drop 45), digest := crcAt p 53,
    afterOn := byteAt p 55, afterEntry := byteAt p 56, afterWindow := decLE 2 (p.drop 57),
    action := byteAt p 59, holdoff := decLE 2 (p.drop 60), captureSet := byteAt p 62,
    preCount := byteAt p 63, postCount := byteAt p 64, postTime := decLE 2 (p.drop 65) }

/-- The request that a request row stands for: its TAG and its payload (R188, R189). None for an event. -/
def Instr.request? : Instr → Option Req
  | .hardReset _ | .restartTakesEffect | .characterCompletion .. | .idleTimerExpiry _ | .classification _
  | .trigInRisingEdge | .trigInEdgeAccepted | .holdoffExpiry _ | .postTimerExpiry _ | .hostByteReceived _
  | .interByteTimeout | .txFrameEnd | .programUnitEnd _ | .programUnitTimeout _ | .eraseEnd _ | .eraseTimeout
  | .arrayReadDone | .scanFinish | .startBit .. | .pinSampledHigh _ => none
  | .unknownRequest tag p => some ⟨tag, p⟩
  | .identify tag => some ⟨tag, [0x01#8]⟩
  | .getStatus tag => some ⟨tag, [0x02#8]⟩
  | .setTime tag t => some ⟨tag, 0x03#8 :: encLE 6 t⟩
  | .setNoticeMask tag k l => some ⟨tag, 0x04#8 :: (encLE 2 k ++ [l])⟩
  | .clearFaults tag => some ⟨tag, [0x05#8]⟩
  | .restart tag => some ⟨tag, [0x06#8]⟩
  | .configureLine tag l c => some ⟨tag, 0x10#8 :: l :: c.bytes⟩
  | .startLine tag l _ => some ⟨tag, [0x11#8, l]⟩
  | .stopLine tag l => some ⟨tag, [0x12#8, l]⟩
  | .getLineCounts tag l c => some ⟨tag, [0x13#8, l, c]⟩
  | .setPoolMark tag m => some ⟨tag, 0x14#8 :: encLE 2 m⟩
  | .writeEntry tag i e => some ⟨tag, 0x20#8 :: i :: e.bytes⟩
  | .readEntry tag i => some ⟨tag, [0x21#8, i]⟩
  | .clearEntry tag i => some ⟨tag, [0x22#8, i]⟩
  | .forceTrigger tag i => some ⟨tag, [0x30#8, i]⟩
  | .listIncidents tag => some ⟨tag, [0x31#8]⟩
  | .closeIncident tag i => some ⟨tag, 0x32#8 :: encLE 2 i⟩
  | .cancelIncident tag i => some ⟨tag, 0x33#8 :: encLE 2 i⟩
  | .listFrames tag l k p a m => some ⟨tag, 0x40#8 :: l :: k :: p :: (encLE 2 a ++ [m])⟩
  | .readFrame tag l q => some ⟨tag, 0x41#8 :: l :: encLE 2 q⟩
  | .takeFrames tag l n => some ⟨tag, [0x42#8, l, n]⟩
  | .releaseFrames tag l q => some ⟨tag, 0x43#8 :: l :: encLE 2 q⟩
  | .getStoreStatus tag => some ⟨tag, [0x50#8]⟩
  | .setStorePolicy tag p => some ⟨tag, [0x51#8, p]⟩
  | .setProtection tag x l => some ⟨tag, [0x52#8, x, l]⟩
  | .eraseSector tag x => some ⟨tag, [0x53#8, x]⟩
  | .listRecords tag f x m => some ⟨tag, 0x54#8 :: (encLE 4 f ++ [x, m])⟩
  | .readRecord tag n k => some ⟨tag, 0x55#8 :: (encLE 4 n ++ encLE 2 k)⟩
  | .verifyRecord tag n => some ⟨tag, 0x56#8 :: encLE 4 n⟩
  | .discardRecord tag n => some ⟨tag, 0x57#8 :: encLE 4 n⟩

/-- The level of the tap pin that a START_LINE row carries beside its payload. -/
def Instr.pinLevel : Instr → Bool
  | .startLine _ _ high => high
  | _ => true

/-- The row that a taken request is (R179): by its code when its payload passes the first checks, and
UNKNOWN_REQUEST otherwise. `pinHigh` is the pin level a START_LINE would find. -/
def decodeRequest (pinHigh : Bool) (q : Req) : Instr :=
  match payloadKnown q.payload, q.payload with
  | true, code :: p =>
    match code.toNat with
    | 0x01 => .identify q.tag
    | 0x02 => .getStatus q.tag
    | 0x03 => .setTime q.tag (decLE 6 p)
    | 0x04 => .setNoticeMask q.tag (decLE 2 p) (byteAt p 2)
    | 0x05 => .clearFaults q.tag
    | 0x06 => .restart q.tag
    | 0x10 => .configureLine q.tag (byteAt p 0) (LineArg.parse (p.drop 1))
    | 0x11 => .startLine q.tag (byteAt p 0) pinHigh
    | 0x12 => .stopLine q.tag (byteAt p 0)
    | 0x13 => .getLineCounts q.tag (byteAt p 0) (byteAt p 1)
    | 0x14 => .setPoolMark q.tag (decLE 2 p)
    | 0x20 => .writeEntry q.tag (byteAt p 0) (EntryDef.parse (p.drop 1))
    | 0x21 => .readEntry q.tag (byteAt p 0)
    | 0x22 => .clearEntry q.tag (byteAt p 0)
    | 0x30 => .forceTrigger q.tag (byteAt p 0)
    | 0x31 => .listIncidents q.tag
    | 0x32 => .closeIncident q.tag (decLE 2 p)
    | 0x33 => .cancelIncident q.tag (decLE 2 p)
    | 0x40 => .listFrames q.tag (byteAt p 0) (byteAt p 1) (byteAt p 2) (decLE 2 (p.drop 3)) (byteAt p 5)
    | 0x41 => .readFrame q.tag (byteAt p 0) (decLE 2 (p.drop 1))
    | 0x42 => .takeFrames q.tag (byteAt p 0) (byteAt p 1)
    | 0x43 => .releaseFrames q.tag (byteAt p 0) (decLE 2 (p.drop 1))
    | 0x50 => .getStoreStatus q.tag
    | 0x51 => .setStorePolicy q.tag (byteAt p 0)
    | 0x52 => .setProtection q.tag (byteAt p 0) (byteAt p 1)
    | 0x53 => .eraseSector q.tag (byteAt p 0)
    | 0x54 => .listRecords q.tag (decLE 4 p) (byteAt p 4) (byteAt p 5)
    | 0x55 => .readRecord q.tag (decLE 4 p) (decLE 2 (p.drop 4))
    | 0x56 => .verifyRecord q.tag (decLE 4 p)
    | 0x57 => .discardRecord q.tag (decLE 4 p)
    | _ => .unknownRequest q.tag q.payload
  | _, _ => .unknownRequest q.tag q.payload

/-- The command that a word spells by the table's bits: no row of spec/opcode_table.json gives bits. -/
def decodeTableWord (_nbits _w : Nat) : Option Instr := none

end Sys2Proof
end

