-- ==== Sys2Proof/Machine/State.lean ====
section
/-! DEFINITION. The state of the WL810: every piece of state the manual gives the part, as plain data, block by
block as spec/00_scope.md (Block overview) owns it, and the queue of commands that wait. -/

namespace Sys2Proof.Machine

/-! ### Line receivers (spec/01) -/

/-- Line state (R16 to R19). -/
inductive LineState where
  | stopped | active | suspended | shed | stopping
  deriving DecidableEq, Repr

/-- Reception state (R5). -/
inductive Reception where
  | hunt | receiving | discarding
  deriving DecidableEq, Repr

/-- Parity of a line (R22). -/
inductive Parity where
  | noParity | even | odd
  deriving DecidableEq, Repr

/-- Framing mode of a line (R7 to R10). -/
inductive FramingMode where
  | gap | marked | counted
  deriving DecidableEq, Repr

/-- Frame check of a line (R12). -/
inductive FrameCheck where
  | noCheck | sum8 | crc16
  deriving DecidableEq, Repr

/-- History policy of a line (R30). -/
inductive HistoryPolicy where
  | ring | feed
  deriving DecidableEq, Repr

/-- The line configuration (R22). Fields that the mode does not use are kept as written. -/
structure LineConfig where
  divisor    : Nat
  sevenBits  : Bool
  parity     : Parity
  twoStops   : Bool
  mode       : FramingMode
  idleTime   : Nat
  startByte  : Byte
  endByte    : Byte
  escapeByte : Byte
  lenOffset  : Byte
  addend     : Byte
  check      : FrameCheck
  maxLength  : Nat
  keepBad    : Bool
  policy     : HistoryPolicy
  depth      : Nat
  sheddable  : Bool
  deriving DecidableEq, Repr

/-- The defaults of R22. -/
def LineConfig.default : LineConfig :=
  { divisor := 104, sevenBits := false, parity := .noParity, twoStops := false, mode := .gap, idleTime := 40,
    startByte := 0x02#8, endByte := 0x03#8, escapeByte := 0x10#8, lenOffset := 0#8, addend := 0#8,
    check := .noCheck, maxLength := 256, keepBad := true, policy := .ring, depth := 32, sheddable := true }

/-- How a frame in reception is taken, decided where it begins (R5): stored, or followed and then counted in
lost (begun in SUSPENDED) or in shed (begun in SHED). -/
inductive Taking where
  | stored | followedLost | followedShed
  deriving DecidableEq, Repr

/-- The frame in reception (R5, R6, R13). `count` is the stored bytes so far, or those it would have stored when
it is followed; `slot` is taken with the first stored byte; the three instants are elapsed counts. -/
structure CurrentFrame where
  taking     : Taking
  slot       : Option Nat
  count      : Nat
  charErr    : Bool
  startTime  : Stamp
  firstAt    : Stamp
  lastAt     : Stamp
  storedAt   : Stamp
  total      : Option Nat
  deriving DecidableEq, Repr

/-- An idle interval (R3): the elapsed count of the event it follows, and how many half bit times after that
event it begins (1 or 3 after a character, 0 after the pin is sampled high). -/
structure IdleInterval where
  since    : Stamp
  halfBits : Nat
  deriving DecidableEq, Repr

/-- The seven counters of a line, 32-bit and wrapping. -/
structure LineCounters where
  kept       : Word
  bad        : Word
  dropped    : Word
  cut        : Word
  lost       : Word
  shed       : Word
  charErrors : Word
  deriving DecidableEq, Repr

/-- All seven counters at 0. -/
def LineCounters.zero : LineCounters := ⟨0, 0, 0, 0, 0, 0, 0⟩

/-- One line receiver. `awaiting` holds the slots of the completed frames not yet classified, oldest first
(R14, R55); `discardLeft` the characters a COUNTED frame of known length still has to pass (R10, R11). -/
structure Line where
  cfg         : LineConfig
  state       : LineState
  reception   : Reception
  current     : Option CurrentFrame
  awaiting    : List Nat
  nextSeq     : Half
  counters    : LineCounters
  attention   : Bool
  inCharacter : Bool
  awaitHigh   : Bool
  idle        : Option IdleInterval
  escape      : Bool
  discardLeft : Option Nat
  deriving DecidableEq, Repr

/-- A line receiver after a reset (R24; the fields no rule names, log 29). -/
def Line.reset : Line :=
  { cfg := .default, state := .stopped, reception := .hunt, current := none, awaiting := [], nextSeq := 0,
    counters := .zero, attention := false, inCharacter := false, awaitHigh := false, idle := none,
    escape := false, discardLeft := none }

/-! ### Memories -/

/-- What the bytes of a memory that are not listed hold: blank (FFh), or contents the manual calls undefined,
read as free values under a key. -/
inductive Fill where
  | blank | undef (key : Nat)
  deriving DecidableEq, Repr

/-- A byte memory: the bytes that differ from the fill, addresses strictly rising. -/
structure Memory where
  fill  : Fill
  cells : List Host.Cell
  deriving DecidableEq, Repr

/-! ### Capture memory controller (spec/02) -/

/-- Check status of a frame (R12). -/
inductive CheckStatus where
  | noCheck | good | bad
  deriving DecidableEq, Repr

/-- Flags of a frame (R14). -/
structure FrameFlags where
  charErr    : Bool
  cut        : Bool
  broken     : Bool
  checkShort : Bool
  deriving DecidableEq, Repr

/-- Place of a frame (spec/02, Frame slots). -/
inductive Place where
  | inReception | inHistory | handedOut | detached
  deriving DecidableEq, Repr

/-- A frame slot that is not FREE (spec/02, Frame slots). -/
structure Frame where
  line     : Fin 8
  seq      : Half
  start    : Stamp
  duration : Word
  length   : Nat
  pages    : List Nat
  check    : CheckStatus
  flags    : FrameFlags
  matchSet : Half
  pins     : Nat
  place    : Place
  deriving DecidableEq, Repr

/-- The capture memory controller. `slots` lists the slots that are not FREE by number, rising; `hist` and
`handed` are the history queue and the handed-out list of each line, oldest first. -/
structure Capture where
  mem      : Memory
  free     : List Nat
  slots    : List (Nat × Frame)
  hist     : Vector (List Nat) 8
  handed   : Vector (List Nat) 8
  pressure : Bool
  lowMark  : Nat
  deriving DecidableEq, Repr

/-- Capture memory after a reset (R47); the page memory is given, since its contents differ by reset (log 9). -/
def Capture.reset (mem : Memory) : Capture :=
  { mem := mem, free := List.range Config.pageCount, slots := [], hist := Vector.replicate 8 [],
    handed := Vector.replicate 8 [], pressure := false, lowMark := 64 }

/-! ### Match unit (spec/03) -/

/-- A match entry: definition and runtime fields (R48, R54, R61). -/
structure Entry where
  body       : EntryDef
  lastMatch  : Option Stamp
  holdoffEnd : Option Stamp
  count      : Word
  deriving DecidableEq, Repr

/-- The definition of an UNUSED entry: every field zero (R48, R70). -/
def unusedDef : EntryDef :=
  { kind := 0, enabled := 0, lineSet := 0, status := 0, lenMin := 0, lenMax := 0, offset := 0, width := 0,
    pattern := 0, byteMask := 0, sense := 0, span := 0, spanMask := 0, digest := 0, afterOn := 0,
    afterEntry := 0, afterWindow := 0, action := 0, holdoff := 0, captureSet := 0, preCount := 0,
    postCount := 0, postTime := 0 }

/-- An entry with a definition and fresh runtime fields (R65, R68). -/
def Entry.fresh (body : EntryDef) : Entry := { body := body, lastMatch := none, holdoffEnd := none, count := 0 }

/-- A rising edge on TRIG_IN: the time of day and the elapsed count at the edge (R62). -/
structure Edge where
  time    : Stamp
  elapsed : Stamp
  deriving DecidableEq, Repr

/-- The match unit. -/
structure Matcher where
  entries      : Vector Entry 16
  missed       : Word
  lastAccepted : Option Stamp
  risingEdge   : Option Edge
  deriving DecidableEq, Repr

/-- The match unit after a reset (R70). -/
def Matcher.reset : Matcher :=
  { entries := Vector.replicate 16 (.fresh unusedDef), missed := 0, lastAccepted := none, risingEdge := none }

/-! ### Incident unit (spec/04) -/

/-- Source of an incident (R73). -/
inductive Source where
  | entry | external | forced
  deriving DecidableEq, Repr

/-- States of an incident that holds a slot; RETAINED and ABANDONED free the slot at their event (R71). -/
inductive IncidentState where
  | collecting | queued | committing
  deriving DecidableEq, Repr

/-- Close reason (R84). -/
inductive CloseReason where
  | count | time | full | host
  deriving DecidableEq, Repr

/-- Abandon reason (R89). -/
inductive AbandonReason where
  | cancelled | storeFault
  deriving DecidableEq, Repr

/-- An incident (spec/04, The incident table). `frames` names frame slots in the order of R76; `trigger` is the
trigger line and sequence. -/
structure Incident where
  id            : Half
  source        : Source
  entry         : Fin 16
  trigger       : Option (Fin 8 × Half)
  triggerTime   : Stamp
  captureSet    : Byte
  preCount      : Nat
  postCount     : Nat
  postTime      : Nat
  state         : IncidentState
  frames        : List Nat
  budget        : Nat
  postFrames    : Nat
  closeReason   : Option CloseReason
  preTrimmed    : Bool
  retried       : Bool
  cancelPending : Bool
  serial        : Option Word
  postTimer     : Option Stamp
  deriving DecidableEq, Repr

/-- The incident unit. `opened` lists the incidents in the table in their order of opening (R81, R94). -/
structure Incidents where
  table     : Vector (Option Incident) 4
  opened    : List (Fin 4)
  queue     : List (Fin 4)
  idCounter : Half
  evtOut    : Bool
  deriving DecidableEq, Repr

/-- The incident unit after a reset (R96). -/
def Incidents.reset : Incidents :=
  { table := Vector.replicate 4 none, opened := [], queue := [], idCounter := 1, evtOut := false }

/-! ### Store controller (spec/05) and the scan (spec/07) -/

/-- State of a sector (R103). -/
inductive SectorState where
  | erased | opened | full | dirty | erasing | retired
  deriving DecidableEq, Repr

/-- Protection of a sector (R111). -/
inductive Protection where
  | unlocked | locked | lockedDown
  deriving DecidableEq, Repr

/-- A sector: its array contents and erase status (R97, R139), its protection, and its entry of the sector
table (spec/05, The sector table). -/
structure Sector where
  mem           : Memory
  eraseComplete : Bool
  protection    : Protection
  state         : SectorState
  seq           : Option Word
  fillOffset    : Option Nat
  live          : Nat
  dead          : Nat
  pending       : Bool
  deriving DecidableEq, Repr

/-- A sector whose table entry is empty, as the beginning of a scan leaves it (R140; its zeros, log 8). -/
def Sector.emptied (mem : Memory) (complete : Bool) (p : Protection) : Sector :=
  { mem := mem, eraseComplete := complete, protection := p, state := .erased, seq := none, fillOffset := none,
    live := 0, dead := 0, pending := false }

/-- Causes of array operations (R100). -/
inductive Cause where
  | host | reclaim | overwrite | commit | mark
  deriving DecidableEq, Repr

/-- An erase in progress (R99): active time counted so far, and the elapsed count since which more is counted,
absent while the erase is suspended (R102). -/
structure EraseOp where
  sector : Fin 64
  cause  : Cause
  active : Nat
  since  : Option Stamp
  deriving DecidableEq, Repr

/-- A program unit in progress (R98). -/
structure ProgramOp where
  sector : Fin 64
  offset : Nat
  bytes  : List Byte
  cause  : Cause
  serial : Option Word
  since  : Stamp
  deriving DecidableEq, Repr

/-- The array operation in progress (R100). -/
inductive ArrayOp where
  | erase (e : EraseOp)
  | program (p : ProgramOp)
  deriving DecidableEq, Repr

/-- The array holder (R101). -/
inductive Holder where
  | commit | hostItem | background
  deriving DecidableEq, Repr

/-- An item of the host work list (R109). -/
inductive WorkItem where
  | erase (sector : Fin 64)
  | mark (serial : Word) (sector : Fin 64) (offset : Nat)
  deriving DecidableEq, Repr

/-- The sector an item names. -/
def WorkItem.sector : WorkItem → Fin 64
  | .erase x => x
  | .mark _ x _ => x

/-- An entry of the record index (R123). -/
structure IndexEntry where
  serial      : Word
  sector      : Fin 64
  offset      : Nat
  length      : Nat
  id          : Half
  source      : Byte
  entry       : Byte
  triggerLine : Byte
  triggerTime : Stamp
  frameCount  : Nat
  preTrimmed  : Bool
  retried     : Bool
  closedFull  : Bool
  deriving DecidableEq, Repr

/-- A record read that passed its checks and waits or is served (R102, R167). -/
inductive ReadJob where
  | read (entry : IndexEntry) (first : Nat)
  | verify (entry : IndexEntry)
  deriving DecidableEq, Repr

/-- Store state (R114). -/
inductive StoreState where
  | scanning | ready
  deriving DecidableEq, Repr

/-- Store policy (R113). -/
inductive StorePolicy where
  | stop | overwriteOldest
  deriving DecidableEq, Repr

/-- The sticky store faults (R115). -/
structure StoreFaults where
  programFail : Bool
  eraseFail   : Bool
  scanDamage  : Bool
  deriving DecidableEq, Repr

/-- Cause of a reset and of the scan it begins (R140, R194). -/
inductive ResetCause where
  | hardReset | restart
  deriving DecidableEq, Repr

/-- How the scan classes a sector (R141). -/
inductive SectorClass where
  | erased | dirty | headed (seq : Word)
  deriving DecidableEq, Repr

/-- The findings of the scan for one sector (spec/07): class, end-of-records offset, offset it is closed at,
live records and dead bytes. -/
structure SectorFinding where
  sector   : Fin 64
  cls      : SectorClass
  endAt    : Nat
  closedAt : Option Nat
  live     : Nat
  dead     : Nat
  deriving DecidableEq, Repr

/-- The working state of the scan (spec/07). -/
structure ScanWork where
  cause         : ResetCause
  findings      : List SectorFinding
  found         : List IndexEntry
  highestSerial : Option Word
  highestSeq    : Option Word
  torn          : Nat
  damage        : Bool
  deriving DecidableEq, Repr

/-- The working state as a scan begins (R140). -/
def ScanWork.fresh (cause : ResetCause) : ScanWork :=
  { cause := cause, findings := [], found := [], highestSerial := none, highestSeq := none, torn := 0,
    damage := false }

/-- The store controller. -/
structure Store where
  sectors : Vector Sector 64
  nextSeq : Word
  op      : Option ArrayOp
  holder  : Option Holder
  work    : List WorkItem
  read    : Option ReadJob
  state   : StoreState
  policy  : StorePolicy
  faults  : StoreFaults
  scan    : ScanWork
  deriving DecidableEq, Repr

/-- The store controller as a scan begins, with its sectors and faults (R117, R118, R140). -/
def Store.scanning (sectors : Vector Sector 64) (faults : StoreFaults) (cause : ResetCause) : Store :=
  { sectors := sectors, nextSeq := 0, op := none, holder := none, work := [], read := none, state := .scanning,
    policy := .stop, faults := faults, scan := .fresh cause }

/-! ### Record manager (spec/06) -/

/-- Reason of the store-full mark (R129). -/
inductive FullReason where
  | serials | index | sector
  deriving DecidableEq, Repr

/-- The unit in progress, or last ended, of a commit in its programming phase (R132, R135). -/
inductive UnitKind where
  | record (len : Nat)
  | complete
  | cancel
  deriving DecidableEq, Repr

/-- The programming phase of a commit (R132): where the record stands, how many of its bytes are programmed and
in how many units, and the unit in hand. -/
structure Programming where
  serial : Word
  sector : Fin 64
  offset : Nat
  done   : Nat
  units  : Nat
  unit   : UnitKind
  deriving DecidableEq, Repr

/-- Phase of a commit: reservation, with the sector and sequence whose header it programs if it does (R125,
R127), or programming. -/
inductive CommitPhase where
  | reservation (opening : Option (Fin 64 × Word))
  | programming (p : Programming)
  deriving DecidableEq, Repr

/-- The commit in progress (spec/06, The commit). `incident` is absent when it was cancelled during the
reservation (R131); `policy` is the one found at the grant (R113); `waiting` says that the next step of the
commit waits for a record read to be served (R102, R133). -/
structure Commit where
  incident : Option (Fin 4)
  size     : Nat
  policy   : StorePolicy
  phase    : CommitPhase
  waiting  : Bool
  deriving DecidableEq, Repr

/-- The record manager. -/
structure Records where
  index      : List IndexEntry
  nextSerial : Word
  commit     : Option Commit
  full       : Option FullReason
  deriving DecidableEq, Repr

/-- The record manager after a reset (R138). -/
def Records.reset : Records := { index := [], nextSerial := 0, commit := none, full := none }

/-! ### Timebase (spec/10) -/

/-- The timebase: time of day, elapsed count, last reset cause (R191, R192, R194). -/
structure Timebase where
  tod     : Stamp
  elapsed : Stamp
  cause   : ResetCause
  deriving DecidableEq, Repr

/-! ### Link controller and request handler (spec/09) -/

/-- Result codes (R188). -/
inductive Result where
  | ok | accepted | badRequest | badArgument | wrongState | notFound | prot | busy | notReady | noRoom
  deriving DecidableEq, Repr

/-- A reply: TAG, request code, result and reply data (R190). -/
structure Reply where
  tag    : Byte
  code   : Byte
  result : Result
  data   : List Byte
  deriving DecidableEq, Repr

/-- The notices and their fields (R188, spec/10 Notices as the host receives them). -/
inductive Notice where
  | started (cause : ResetCause) (indexed torn erased opened full dirty : Nat) (nextSerial : Word)
      (faults : StoreFaults)
  | lineState (line : Fin 8) (new old : LineState) (attention : Bool)
  | poolPressure (on : Bool) (freeCount lowMark : Nat)
  | triggerMissed (entry : Fin 16) (source : Source) (trigger : Option (Fin 8 × Half)) (time : Stamp)
      (missed : Word)
  | incidentOpened (id : Half) (source : Source) (entry : Fin 16) (trigger : Option (Fin 8 × Half))
      (time : Stamp) (captureSet : Byte) (frames budget : Nat) (preTrimmed : Bool)
  | incidentClosed (id : Half) (reason : CloseReason) (frames budget postFrames : Nat)
      (preTrimmed retried : Bool)
  | incidentRetained (id : Half) (serial : Word) (sector : Fin 64) (offset length frames : Nat)
      (reason : Option CloseReason) (preTrimmed retried : Bool)
  | incidentLost (id : Half) (reason : AbandonReason) (left : IncidentState) (frames : Nat) (retried : Bool)
      (serial : Word)
  | recordsOverwritten (sector : Fin 64) (removed : Nat) (lowest highest : Word)
  | storeFull (reason : FullReason) (id : Half) (size : Nat) (policy : StorePolicy) (entries erased : Nat)
  | storeFault (programFail : Bool) (sector : Fin 64) (offset : Nat) (cause : Cause) (serial : Word)
      (faults : StoreFaults)
  | eraseDone (sector : Fin 64) (erased : Bool) (cause : Cause)
  | feedReady (line : Fin 8) (seq : Half) (history handed : Nat) (state : LineState)
  | noticesLost (count : Nat) (kinds : Half) (first : Stamp)
  deriving DecidableEq, Repr

/-- A notice in the notice queue: the notice number it took as TAG, the time of day at its queuing, and the
notice with its fields (R182). -/
structure QueuedNotice where
  tag    : Byte
  time   : Stamp
  notice : Notice
  deriving DecidableEq, Repr

/-- The frame the transmitter sends (R184). -/
inductive TxFrame where
  | reply (r : Reply)
  | notice (n : QueuedNotice)
  deriving DecidableEq, Repr

/-- State of the request handler (spec/09); EXECUTING holds the request in hand. -/
inductive Handler where
  | idle | executing (q : Req) | replyHeld | halted
  deriving DecidableEq, Repr

/-- State of the receive hunter (R174, R175): HEADER with the bytes after SYNC, BODY with LENGTH and the bytes
of offsets 1 on. -/
inductive Hunter where
  | hunt
  | header (bytes : List Byte)
  | body (length : Nat) (bytes : List Byte)
  deriving DecidableEq, Repr

/-- The lost notice record (R183). -/
structure LostRecord where
  count : Nat
  kinds : Half
  first : Stamp
  deriving DecidableEq, Repr

/-- No notice lost. -/
def LostRecord.zero : LostRecord := ⟨0, 0, 0⟩

/-- The five link counters, 16-bit and saturating (R177). -/
structure LinkCounters where
  badEnvelope : Nat
  badCheck    : Nat
  timeout     : Nat
  refused     : Nat
  otherKind   : Nat
  deriving DecidableEq, Repr

/-- The link controller and the request handler. `lastByteAt` is the elapsed count at the completion of the
last byte of the frame in progress (R176). -/
structure Link where
  straps     : BitVec 2
  hunter     : Hunter
  lastByteAt : Stamp
  requests   : List Req
  handler    : Handler
  slot       : Option Reply
  notices    : List QueuedNotice
  number     : Byte
  lost       : LostRecord
  tx         : Option TxFrame
  counters   : LinkCounters
  kindMask   : Half
  lineMask   : Byte
  deriving DecidableEq, Repr

/-- The kind mask of all fourteen kinds, bits 1 to 14 (R196). -/
def allKinds : Half := 0x7FFE#16

/-- The link controller after a reset, with its rate straps (R186, R187, R196). -/
def Link.reset (straps : BitVec 2) : Link :=
  { straps := straps, hunter := .hunt, lastByteAt := 0, requests := [], handler := .idle, slot := none,
    notices := [], number := 0, lost := .zero, tx := none, counters := ⟨0, 0, 0, 0, 0⟩,
    kindMask := allKinds, lineMask := 0xFF#8 }

/-! ### The part -/

/-- The state of the WL810. `freeKey` is the model's own counter: the key under which the next free value is
read. `pending` is the queue of commands that wait, the front one next. -/
structure State where
  lines    : Vector Line 8
  capture  : Capture
  matcher  : Matcher
  inc      : Incidents
  store    : Store
  records  : Records
  time     : Timebase
  link     : Link
  freeKey  : Nat
  pending  : List Instr
  deriving DecidableEq, Repr

/-- Why the part stops: no rule of the manual stops it, so there is no fault. -/
inductive Fault where
  deriving DecidableEq, Repr

/-- Why a command has no meaning in this model. -/
inductive Refusal where
  /-- The command is not modelled yet; raised by a refused arm of `exec` alone. Safe: nothing can be proved
  of a step that is refused. -/
  | notModelled (mnemonic : String)
  deriving DecidableEq, Repr

/-- A sector as this model takes it at first power-on: blank, erase status complete (DESIGN CHOICE, log 6). -/
def Sector.factory : Sector := .emptied ⟨.blank, []⟩ true .unlocked

/-- The machine right after a hard reset: every block as its own rule gives (R24, R47, R70, R96, R117, R138,
R186, R201), the scan begun (R140). The array's contents, kept through every reset, are blank here (log 6); the
straps read 00 (log 7). -/
def State.reset : State :=
  { lines := Vector.replicate 8 .reset, capture := .reset ⟨.undef 0, []⟩, matcher := .reset, inc := .reset,
    store := .scanning (Vector.replicate 64 .factory) ⟨false, false, false⟩ .hardReset,
    records := .reset, time := ⟨0, 0, .hardReset⟩, link := .reset 0, freeKey := 1, pending := [] }

end Sys2Proof.Machine
end

