-- ==== Sys2Proof/Machine/Ops.lean ====
section
/-! DEFINITION. The named operations over memories, slot lists, registers and the clocks, shared by every
meaning. -/

namespace Sys2Proof.Machine

/-! ### Numbered things -/

/-- The eight lines, lowest first. -/
def allLines : List (Fin 8) := List.finRange 8
/-- The sixteen entries in index order. -/
def allEntries : List (Fin 16) := List.finRange 16
/-- The four incident slots. -/
def allSlots : List (Fin 4) := List.finRange 4
/-- The 64 sectors, lowest first. -/
def allSectors : List (Fin 64) := List.finRange 64

/-- Apply a function to every element of a vector, with its index. -/
def vmap {α : Type} {n : Nat} (v : Vector α n) (f : Fin n → α → α) : Vector α n :=
  Vector.ofFn fun i => f i v[i]

/-! ### Lists by key -/

/-- Put a value under a key, keys rising. -/
def insertKey {α : Type} (k : Nat) (v : α) : List (Nat × α) → List (Nat × α)
  | [] => [(k, v)]
  | (j, w) :: rest =>
    if k < j then (k, v) :: (j, w) :: rest
    else if k = j then (k, v) :: rest
    else (j, w) :: insertKey k v rest

/-- Take a key out. -/
def eraseKey {α : Type} (k : Nat) (l : List (Nat × α)) : List (Nat × α) := l.filter fun c => c.1 != k

/-- The value under a key. -/
def lookupKey {α : Type} (k : Nat) : List (Nat × α) → Option α
  | [] => none
  | (j, v) :: rest => if j = k then some v else lookupKey k rest

/-- The lowest number from `n` on that is no key of a list with rising keys. -/
def lowestFree {α : Type} : Nat → List (Nat × α) → Nat
  | n, [] => n
  | n, (j, _) :: rest => if j = n then lowestFree (n + 1) rest else n

/-- Keys strictly rising. -/
def risingKeys {α : Type} : List (Nat × α) → Bool
  | [] => true
  | [_] => true
  | (j, _) :: (k, w) :: rest => decide (j < k) && risingKeys ((k, w) :: rest)

/-! ### Memories -/

/-- What an unlisted byte reads as: FFh in a blank memory, a free value where the contents are undefined. -/
def Fill.byte (f : Fill) (a : Nat) : Byte :=
  match f with
  | .blank => 0xFF#8
  | .undef key => Config.freeByte key a

/-- Read one byte. -/
def Memory.read (m : Memory) (a : Nat) : Byte := (lookupKey a m.cells).getD (m.fill.byte a)

/-- Write one byte; in a blank memory, writing FFh takes the entry out. -/
def Memory.write (m : Memory) (a : Nat) (v : Byte) : Memory :=
  if m.fill = .blank ∧ v = 0xFF#8 then { m with cells := eraseKey a m.cells }
  else { m with cells := insertKey a v m.cells }

/-- The canonical form: addresses strictly rising, and in a blank memory no entry FFh. -/
def Memory.wf (m : Memory) : Bool :=
  risingKeys m.cells && (m.fill != .blank || m.cells.all fun c => c.2 != 0xFF#8)

/-- Read `n` bytes from an address on. -/
def Memory.readRange (m : Memory) (a n : Nat) : List Byte := (List.range n).map fun i => m.read (a + i)

/-- Write bytes from an address on. -/
def Memory.writeBytes (m : Memory) (a : Nat) : List Byte → Memory
  | [] => m
  | b :: bs => (m.write a b).writeBytes (a + 1) bs

/-- Whether the bytes from `a` up to but not including `b` all read FFh. -/
def Memory.blankIn (m : Memory) (a b : Nat) : Bool :=
  match m.fill with
  | .blank => m.cells.all fun c => decide (c.1 < a) || decide (b ≤ c.1)
  | .undef _ => (List.range (b - a)).all fun i => m.read (a + i) == 0xFF#8

/-- The bytes a program unit is to leave: former value AND value written (R97). -/
def intendedBytes (former written : List Byte) : List Byte := List.zipWith (· &&& ·) former written

/-- The bytes a program unit leaves when the cells were driven to `cells`: a bit only falls (R97); a byte not
listed in `cells` is driven by `rest`. -/
def drivenBytes (former rest cells : List Byte) : List Byte :=
  (List.range former.length).map fun i =>
    former.getD i 0xFF#8 &&& (cells[i]?).getD (rest.getD i 0xFF#8)

/-! ### CRC-16 (spec/00 Conventions, R12) -/

/-- One place of the shift register: shift left, and combine with 1021h when a 1 was shifted out. -/
def crcShift (v : Half) : Half := if v.msb then (v <<< 1) ^^^ 0x1021#16 else v <<< 1

/-- One byte: placed against the high byte, then eight shifts. -/
def crcStep (v : Half) (b : Byte) : Half :=
  crcShift (crcShift (crcShift (crcShift (crcShift (crcShift (crcShift (crcShift
    (v ^^^ (b.setWidth 16 <<< 8)))))))))

/-- The CRC-16 of a run of bytes: initial value FFFFh, no inversion. -/
def crc16 (bytes : List Byte) : Half := bytes.foldl crcStep 0xFFFF#16

/-! ### The clocks (R191, R192) -/

/-- µs from `since` to `now` on a clock that wraps at 2^48. -/
def microsSince (now since : Stamp) : Nat := (now - since).toNat

/-- Whether the elapsed count has reached a point: the point lies at or behind it, across a wrap (R192). -/
def reached (now point : Stamp) : Bool := decide ((now - point).toNat < 2 ^ 47)

/-- The point `ms` milliseconds after `now` (R192). -/
def pointAfterMs (now : Stamp) (ms : Nat) : Stamp := now + BitVec.ofNat 48 (ms * 1000)

/-- The point `us` microseconds after `now`. -/
def pointAfterUs (now : Stamp) (us : Nat) : Stamp := now + BitVec.ofNat 48 us

/-- Milliseconds left to a point, rounded up (R61, R80). -/
def msLeft (now point : Stamp) : Nat :=
  if reached now point then 0 else ((point - now).toNat + 999) / 1000

/-- Both clocks advance by one µs (R191, R192). -/
def Timebase.tick (t : Timebase) : Timebase := { t with tod := t.tod + 1, elapsed := t.elapsed + 1 }

/-- Both clocks advance to a point of the elapsed count, if it has not been reached (log 3). -/
def Timebase.advanceTo (t : Timebase) (point : Stamp) : Timebase :=
  if reached t.elapsed point then t
  else { t with tod := t.tod + (point - t.elapsed), elapsed := point }

/-- The clocks of the part advance to a point. -/
def State.advanceTo (s : State) (point : Stamp) : State := { s with time := s.time.advanceTo point }

/-! ### Setting parts of the state -/

/-- Replace one line receiver. -/
def State.setLine (s : State) (i : Fin 8) (l : Line) : State := { s with lines := s.lines.set i l }

/-- Change one line receiver. -/
def State.modLine (s : State) (i : Fin 8) (f : Line → Line) : State := s.setLine i (f s.lines[i])

/-- Replace one sector. -/
def Store.setSector (st : Store) (x : Fin 64) (v : Sector) : Store :=
  { st with sectors := st.sectors.set x v }

/-- Change one sector. -/
def Store.modSector (st : Store) (x : Fin 64) (f : Sector → Sector) : Store :=
  st.setSector x (f st.sectors[x])

/-- Change one sector of the part. -/
def State.modSector (s : State) (x : Fin 64) (f : Sector → Sector) : State :=
  { s with store := s.store.modSector x f }

/-- Replace one incident slot. -/
def State.setIncident (s : State) (k : Fin 4) (v : Option Incident) : State :=
  { s with inc := { s.inc with table := s.inc.table.set k v } }

/-- Change one entry's runtime fields or definition. -/
def Matcher.setEntry (m : Matcher) (e : Fin 16) (v : Entry) : Matcher :=
  { m with entries := m.entries.set e v }

/-- The bit of a set of lines, entries or kinds. -/
def inSet {w : Nat} (set : BitVec w) (n : Nat) : Bool := set.getLsbD n

end Sys2Proof.Machine
end

