-- ==== Sys2Proof/Machine/Operands.lean ====
section
/-! DEFINITION. Every operand form of the requests: names from payload bytes, the codes of R189, the argument
checks of R22 and R66, and the sizes of reply fields. -/

namespace Sys2Proof.Machine

/-! ### Names in payloads -/

/-- A line number, 0 to 7. -/
def lineOf (b : Byte) : Option (Fin 8) := if h : b.toNat < 8 then some ⟨b.toNat, h⟩ else none
/-- An entry index, 0 to 15. -/
def entryOf (b : Byte) : Option (Fin 16) := if h : b.toNat < 16 then some ⟨b.toNat, h⟩ else none
/-- A sector number, 0 to 63. -/
def sectorOf (b : Byte) : Option (Fin 64) := if h : b.toNat < 64 then some ⟨b.toNat, h⟩ else none
/-- A boolean, 0 or 1 (spec/00 Conventions). -/
def boolOf (b : Byte) : Option Bool :=
  match b.toNat with
  | 0 => some false
  | 1 => some true
  | _ => none
/-- A protection level (R189). -/
def protectionOf (b : Byte) : Option Protection :=
  match b.toNat with
  | 0 => some .unlocked
  | 1 => some .locked
  | 2 => some .lockedDown
  | _ => none
/-- A store policy (R189). -/
def storePolicyOf (b : Byte) : Option StorePolicy :=
  match b.toNat with
  | 0 => some .stop
  | 1 => some .overwriteOldest
  | _ => none
/-- A presence byte: 0 absent, 1 present (R189); any other value is a free choice (log 22). -/
def presenceOf (b : Byte) : Bool :=
  match b.toNat with
  | 0 => false
  | 1 => true
  | _ => Config.oddPresence b

/-! ### Codes of fields (R188, R189) -/

/-- A boolean as a byte. -/
def boolByte (b : Bool) : Byte := if b then 1 else 0
/-- Line state. -/
def LineState.code : LineState → Byte
  | .stopped => 0 | .active => 1 | .suspended => 2 | .shed => 3 | .stopping => 4
/-- Reception state. -/
def Reception.code : Reception → Byte
  | .hunt => 0 | .receiving => 1 | .discarding => 2
/-- History policy. -/
def HistoryPolicy.code : HistoryPolicy → Byte
  | .ring => 0 | .feed => 1
/-- Check status. -/
def CheckStatus.code : CheckStatus → Byte
  | .noCheck => 0 | .good => 1 | .bad => 2
/-- Frame flags: bit 0 CHAR_ERR, bit 1 CUT, bit 2 BROKEN, bit 3 CHECK_SHORT. -/
def FrameFlags.code (f : FrameFlags) : Byte :=
  (if f.charErr then 1 else 0) ||| (if f.cut then 2 else 0) ||| (if f.broken then 4 else 0)
    ||| (if f.checkShort then 8 else 0)
/-- Place, of the two a descriptor can show. -/
def Place.code : Place → Byte
  | .inHistory => 0 | .handedOut => 1 | .inReception => 0 | .detached => 0
/-- Source. -/
def Source.code : Source → Byte
  | .entry => 0 | .external => 1 | .forced => 2
/-- Incident state. -/
def IncidentState.code : IncidentState → Byte
  | .collecting => 0 | .queued => 1 | .committing => 2
/-- Close reason. -/
def CloseReason.code : CloseReason → Byte
  | .count => 0 | .time => 1 | .full => 2 | .host => 3
/-- Close reason, FFh when absent. -/
def closeCode (r : Option CloseReason) : Byte := (r.map CloseReason.code).getD 0xFF#8
/-- Abandon reason. -/
def AbandonReason.code : AbandonReason → Byte
  | .cancelled => 0 | .storeFault => 1
/-- Incident flags: bit 0 PRE_TRIMMED, bit 1 RETRIED, bit 2 CANCEL_PENDING. -/
def incidentFlags (preTrimmed retried cancelPending : Bool) : Byte :=
  (if preTrimmed then 1 else 0) ||| (if retried then 2 else 0) ||| (if cancelPending then 4 else 0)
/-- Sector state. -/
def SectorState.code : SectorState → Byte
  | .erased => 0 | .opened => 1 | .full => 2 | .dirty => 3 | .erasing => 4 | .retired => 5
/-- Protection. -/
def Protection.code : Protection → Byte
  | .unlocked => 0 | .locked => 1 | .lockedDown => 2
/-- Store state. -/
def StoreState.code : StoreState → Byte
  | .scanning => 0 | .ready => 1
/-- Store policy. -/
def StorePolicy.code : StorePolicy → Byte
  | .stop => 0 | .overwriteOldest => 1
/-- Store faults: bit 0 PROGRAM_FAIL, bit 1 ERASE_FAIL, bit 2 SCAN_DAMAGE. -/
def StoreFaults.code (f : StoreFaults) : Byte :=
  (if f.programFail then 1 else 0) ||| (if f.eraseFail then 2 else 0) ||| (if f.scanDamage then 4 else 0)
/-- Reason of the store-full mark. -/
def FullReason.code : FullReason → Byte
  | .serials => 0 | .index => 1 | .sector => 2
/-- Store-full mark, FFh when clear. -/
def fullCode (r : Option FullReason) : Byte := (r.map FullReason.code).getD 0xFF#8
/-- Operation cause. -/
def Cause.code : Cause → Byte
  | .host => 0 | .reclaim => 1 | .overwrite => 2 | .commit => 3 | .mark => 4
/-- Scan cause (R189); the last reset cause takes the same codes (log 21). -/
def ResetCause.code : ResetCause → Byte
  | .hardReset => 0 | .restart => 1
/-- Result code. -/
def Result.code : Result → Byte
  | .ok => 0 | .accepted => 1 | .badRequest => 2 | .badArgument => 3 | .wrongState => 4 | .notFound => 5
  | .prot => 6 | .busy => 7 | .notReady => 8 | .noRoom => 9

/-! ### Sizes of fields (R189) -/

/-- A number of one byte. -/
def u8 (n : Nat) : List Byte := leBytes 1 n
/-- A number of two bytes. -/
def u16 (n : Nat) : List Byte := leBytes 2 n
/-- A number of four bytes. -/
def u32 (n : Nat) : List Byte := leBytes 4 n
/-- A time of six bytes. -/
def time48 (t : Stamp) : List Byte := leBytes 6 t.toNat
/-- A trigger line, FFh when absent, as a byte. -/
def triggerLineByte (t : Option (Fin 8 × Half)) : Byte :=
  (t.map fun p => BitVec.ofNat 8 p.1.val).getD 0xFF#8
/-- A trigger sequence, FFFFh when absent. -/
def triggerSeq (t : Option (Fin 8 × Half)) : Half := (t.map fun p => p.2).getD 0xFFFF#16

/-! ### CONFIGURE_LINE (R22) -/

/-- Parity from its code. -/
def parityOf (b : Byte) : Option Parity :=
  match b.toNat with
  | 0 => some .noParity
  | 1 => some .even
  | 2 => some .odd
  | _ => none
/-- Framing mode from its code. -/
def modeOf (b : Byte) : Option FramingMode :=
  match b.toNat with
  | 0 => some .gap
  | 1 => some .marked
  | 2 => some .counted
  | _ => none
/-- Frame check from its code. -/
def checkOf (b : Byte) : Option FrameCheck :=
  match b.toNat with
  | 0 => some .noCheck
  | 1 => some .sum8
  | 2 => some .crc16
  | _ => none
/-- History policy from its code. -/
def policyOf (b : Byte) : Option HistoryPolicy :=
  match b.toNat with
  | 0 => some .ring
  | 1 => some .feed
  | _ => none

/-- The further conditions of R22 that hold for the selected mode only. -/
def modeFieldsOk (c : LineArg) (mode : FramingMode) : Bool :=
  match mode with
  | .gap => true
  | .marked =>
    c.startByte != c.endByte && c.startByte != c.escapeByte && c.endByte != c.escapeByte &&
      (c.dataBits != 7 ||
        (decide (c.startByte.toNat ≤ 0x7F) && decide (c.endByte.toNat ≤ 0x7F)
          && decide (c.escapeByte.toNat ≤ 0x7F)))
  | .counted => decide (c.lenOffset.toNat ≤ 7) && decide (c.lenOffset.toNat < c.maxLength.toNat)

/-- The ranges of R22 that do not depend on the mode, but for the enumerated fields. -/
def plainFieldsOk (c : LineArg) : Bool :=
  decide (1 ≤ c.divisor.toNat ∧ c.divisor.toNat ≤ 4096) && (c.dataBits == 7 || c.dataBits == 8)
    && (c.stopBits == 1 || c.stopBits == 2) && decide (12 ≤ c.idleTime.toNat)
    && decide (4 ≤ c.maxLength.toNat ∧ c.maxLength.toNat ≤ 1024) && decide (1 ≤ c.depth.toNat)

/-- The configuration that CONFIGURE_LINE's fields give, when every one is in range (R22). -/
def lineConfigOf (c : LineArg) : Option LineConfig :=
  match parityOf c.parity, modeOf c.mode, checkOf c.check, policyOf c.policy, boolOf c.keepBad,
      boolOf c.sheddable with
  | some parity, some mode, some check, some policy, some keepBad, some sheddable =>
    if plainFieldsOk c && modeFieldsOk c mode then
      some { divisor := c.divisor.toNat, sevenBits := c.dataBits == 7, parity := parity,
             twoStops := c.stopBits == 2, mode := mode, idleTime := c.idleTime.toNat, startByte := c.startByte,
             endByte := c.endByte, escapeByte := c.escapeByte, lenOffset := c.lenOffset, addend := c.addend,
             check := check, maxLength := c.maxLength.toNat, keepBad := keepBad, policy := policy,
             depth := c.depth.toNat, sheddable := sheddable }
    else none
  | _, _, _, _, _, _ => none

end Sys2Proof.Machine

namespace Sys2Proof

/-! ### WRITE_ENTRY (R48, R66) -/

/-- Kinds of a match entry (R189). -/
def kindDirect : Byte := 1
/-- DIGEST. -/
def kindDigest : Byte := 2
/-- EXTERNAL. -/
def kindExternal : Byte := 3
/-- Action DROP. -/
def actionDrop : Byte := 1
/-- Action TRIGGER. -/
def actionTrigger : Byte := 2

/-- DIRECT or DIGEST: tested against frames. -/
def EntryDef.testsFrames (e : EntryDef) : Bool := e.kind == kindDirect || e.kind == kindDigest

/-- An entry that can fire: EXTERNAL, or DIRECT or DIGEST with action TRIGGER (R48, R79). -/
def EntryDef.fires (e : EntryDef) : Bool :=
  e.kind == kindExternal || (e.testsFrames && e.action == actionTrigger)

/-- The frame conditions of a DIRECT or DIGEST entry are in range (R66). -/
def EntryDef.frameFieldsOk (e : EntryDef) : Bool :=
  e.lineSet != 0 && decide (e.status.toNat ≤ 2)
    && decide (1 ≤ e.lenMin.toNat ∧ e.lenMin.toNat ≤ e.lenMax.toNat ∧ e.lenMax.toNat ≤ 1024)
    && decide (e.offset.toNat ≤ 1023)

/-- The comparison fields of the kind are in range (R66). -/
def EntryDef.comparisonOk (e : EntryDef) : Bool :=
  if e.kind == kindDirect then
    decide (1 ≤ e.width.toNat ∧ e.width.toNat ≤ 16 ∧ e.offset.toNat + e.width.toNat ≤ 1024 ∧ e.sense.toNat ≤ 1)
  else if e.kind == kindDigest then
    decide (1 ≤ e.span.toNat ∧ e.span.toNat ≤ 64 ∧ e.offset.toNat + e.span.toNat ≤ 1024)
      && e.spanMask != 0 && decide (e.spanMask.toNat < 2 ^ e.span.toNat)
  else true

/-- The after-condition is in range for entry `i` (R66). -/
def EntryDef.afterOk (e : EntryDef) (i : Fin 16) : Bool :=
  decide (e.afterOn.toNat ≤ 1) &&
    (e.afterOn == 0 ||
      (decide (e.afterEntry.toNat ≤ 15) && decide (e.afterEntry.toNat ≠ i.val)
        && decide (1 ≤ e.afterWindow.toNat)))

/-- The incident template is in range (R66). -/
def EntryDef.templateOk (e : EntryDef) : Bool :=
  decide (e.preCount.toNat ≤ 64) && decide (e.postTime.toNat ≤ 60000)

/-- The checks of WRITE_ENTRY on the definition of entry `i` (R65, R66). -/
def EntryDef.ok (e : EntryDef) (i : Fin 16) : Bool :=
  (e.testsFrames || e.kind == kindExternal) && decide (e.enabled.toNat ≤ 1)
    && (!e.testsFrames || (e.frameFieldsOk && e.comparisonOk)) && e.afterOk i
    && decide (e.action.toNat ≤ 2) && (e.kind != kindExternal || e.action == actionTrigger)
    && (!e.fires || e.templateOk)

end Sys2Proof
end

