-- ==== Sys2Proof/Machine/Flags.lean ====
section
/-! DEFINITION. Every flag computation: character errors, check status, the bad test, pool pressure. -/

namespace Sys2Proof.Machine

/-- The number of ones among the low `n` bits. -/
def onesIn (b : Byte) : Nat → Nat
  | 0 => 0
  | n + 1 => onesIn b n + (if b.getLsbD n then 1 else 0)

/-- A character's value: with 7 data bits the top bit is 0 (R1). -/
def charValue (sevenBits : Bool) (bits : Byte) : Byte := if sevenBits then bits &&& 0x7F#8 else bits

/-- Parity error (R2): data bits and parity bit hold an odd number of ones under EVEN, an even one under ODD. -/
def parityError (parity : Parity) (value : Byte) (parityBit : Bool) : Bool :=
  let odd := (onesIn value 8 + (if parityBit then 1 else 0)) % 2 == 1
  match parity with
  | .noParity => false
  | .even => odd
  | .odd => !odd

/-- The sum of bytes modulo 256. -/
def sum8 (bytes : List Byte) : Byte := bytes.foldl (· + ·) 0

/-- Check status of a completed frame over its stored bytes, and CHECK_SHORT (R12). -/
def checkFrame (check : FrameCheck) (bytes : List Byte) : CheckStatus × Bool :=
  match check with
  | .noCheck => (.noCheck, false)
  | .sum8 => (if sum8 bytes = 0 then .good else .bad, false)
  | .crc16 =>
    if bytes.length < 2 then (.bad, true)
    else
      let n := bytes.length - 2
      (if crcAt (bytes.drop n) 0 = crc16 (bytes.take n) then .good else .bad, false)

/-- Whether a frame is bad (R12, R49): BAD by its check, or any flag. -/
def isBad (check : CheckStatus) (flags : FrameFlags) : Bool :=
  check == .bad || flags.charErr || flags.cut || flags.broken || flags.checkShort

/-- Pool pressure after an evaluation (R42). -/
def pressureAfter (before : Bool) (freeCount lowMark : Nat) : Bool :=
  if before then decide (freeCount < lowMark + 32) else decide (freeCount ≤ lowMark)

/-- A 16-bit counter that saturates (R177). -/
def saturate (n : Nat) : Nat := if n < 0xFFFF then n + 1 else n

/-- EVT_OUT: asserted while an incident is COLLECTING (R93). -/
def collectingCount (inc : Incidents) : Nat :=
  (allSlots.filter fun k => (inc.table[k]).any fun i => i.state == .collecting).length

/-- No sticky store fault. -/
def noFaults : StoreFaults := ⟨false, false, false⟩

end Sys2Proof.Machine
end

