-- ==== Sys2Proof/Machine/Link.lean ====
section
/-! DEFINITION. The host link (spec/09) and the notice masks (spec/10, R196): envelope, hunter, request queue,
request handler, reply slot, notice queue, transmitter; the frame every request row runs in. -/

namespace Sys2Proof.Machine

/-! ### Notices as bytes (R188 to R190) -/

/-- The code of a notice's kind (R188). -/
def Notice.kind : Notice → Nat
  | .started .. => 0x01 | .lineState .. => 0x02 | .poolPressure .. => 0x03 | .triggerMissed .. => 0x04
  | .incidentOpened .. => 0x05 | .incidentClosed .. => 0x06 | .incidentRetained .. => 0x07
  | .incidentLost .. => 0x08 | .recordsOverwritten .. => 0x09 | .storeFull .. => 0x0A
  | .storeFault .. => 0x0B | .eraseDone .. => 0x0C | .feedReady .. => 0x0D | .noticesLost .. => 0x0E

/-- The fields of a notice after its header, in the order their owning rule lists them (spec/10, Notices as the
host receives them; sizes by R189; RETRIED and PRE_TRIMMED alone as 0 or 1, and the fault's code, log 21). -/
def Notice.fields : Notice → List Byte
  | .started cause indexed torn erased opened full dirty serial faults =>
    [cause.code] ++ u16 indexed ++ u8 torn ++ u8 erased ++ u8 opened ++ u8 full ++ u8 dirty
      ++ encLE 4 serial ++ [faults.code]
  | .lineState line new old attention => u8 line.val ++ [new.code, old.code, boolByte attention]
  | .poolPressure on freeCount lowMark => [boolByte on] ++ u16 freeCount ++ u16 lowMark
  | .triggerMissed entry source trigger time missed =>
    u8 entry.val ++ [source.code, triggerLineByte trigger] ++ encLE 2 (triggerSeq trigger) ++ time48 time
      ++ encLE 4 missed
  | .incidentOpened id source entry trigger time set frames budget trimmed =>
    encLE 2 id ++ [source.code] ++ u8 entry.val ++ [triggerLineByte trigger] ++ encLE 2 (triggerSeq trigger)
      ++ time48 time ++ [set] ++ u16 frames ++ u16 budget ++ [boolByte trimmed]
  | .incidentClosed id reason frames budget post trimmed retried =>
    encLE 2 id ++ [reason.code] ++ u16 frames ++ u16 budget ++ u16 post
      ++ [incidentFlags trimmed retried false]
  | .incidentRetained id serial sector offset length frames reason trimmed retried =>
    encLE 2 id ++ encLE 4 serial ++ u8 sector.val ++ u16 offset ++ u16 length ++ u16 frames
      ++ [closeCode reason, incidentFlags trimmed retried false]
  | .incidentLost id reason left frames retried serial =>
    encLE 2 id ++ [reason.code, left.code] ++ u16 frames ++ [boolByte retried] ++ encLE 4 serial
  | .recordsOverwritten sector removed lowest highest =>
    u8 sector.val ++ u16 removed ++ encLE 4 lowest ++ encLE 4 highest
  | .storeFull reason id size policy entries erased =>
    [reason.code] ++ encLE 2 id ++ u16 size ++ [policy.code] ++ u16 entries ++ u8 erased
  | .storeFault program sector offset cause serial faults =>
    [if program then 1 else 2] ++ u8 sector.val ++ u16 offset ++ [cause.code] ++ encLE 4 serial
      ++ [faults.code]
  | .eraseDone sector erased cause => u8 sector.val ++ [if erased then 0 else 1, cause.code]
  | .feedReady line seq history handed state =>
    u8 line.val ++ encLE 2 seq ++ u8 history ++ u8 handed ++ [state.code]
  | .noticesLost count kinds first => u16 count ++ encLE 2 kinds ++ time48 first

/-! ### The envelope (R173, R190) -/

/-- The payload of a reply: code, result, and reply data (R190). -/
def Reply.payload (r : Reply) : List Byte := [r.code, r.result.code] ++ r.data

/-- The payload of a notice: kind, time of day at its queuing, fields (R182, R190). -/
def QueuedNotice.payload (n : QueuedNotice) : List Byte :=
  u8 n.notice.kind ++ time48 n.time ++ n.notice.fields

/-- The KIND byte of a request envelope (R173). -/
def kindRequest : Byte := 0x01#8
/-- The SYNC byte (R173). -/
def syncByte : Byte := 0xB5#8

/-- One envelope (R173): SYNC, LENGTH, LENGTH_INV, KIND, TAG, payload, and the CRC-16 of all but SYNC. -/
def envelope (kind tag : Byte) (payload : List Byte) : List Byte :=
  let inner := u16 payload.length ++ u16 (payload.length ^^^ 0xFFFF) ++ [kind, tag] ++ payload
  syncByte :: inner ++ crcBytes (crc16 inner)

/-- The bytes of a frame on TXD (R173). -/
def TxFrame.bytes : TxFrame → List Byte
  | .reply r => envelope 0x02#8 r.tag r.payload
  | .notice n => envelope 0x03#8 n.tag n.payload

/-! ### Request queue and handler (R178, R179) -/

/-- The IDLE request handler takes the head request (R179). -/
def Link.takeNext (l : Link) : Link :=
  match l.handler, l.requests with
  | .idle, q :: rest => { l with handler := .executing q, requests := rest }
  | _, _ => l

/-- A request is offered to the request queue: it joins the tail, or is refused when 4 wait (R178). -/
def Link.offer (l : Link) (q : Req) : Link :=
  if l.requests.length < Config.requestCapacity then
    ({ l with requests := l.requests ++ [q] }).takeNext
  else { l with counters := { l.counters with refused := saturate l.counters.refused } }

/-! ### Notice queue (R182, R183, R196) -/

/-- Whether the masks let a notice pass (R196). -/
def Link.passes (l : Link) (n : Notice) : Bool :=
  match n with
  | .started .. | .noticesLost .. => true
  | .lineState line .. | .feedReady line .. => inSet l.kindMask n.kind && inSet l.lineMask line.val
  | _ => inSet l.kindMask n.kind

/-- A notice joins the tail and takes the next notice number (R182). -/
def Link.join (l : Link) (tod : Stamp) (n : Notice) : Link :=
  { l with notices := l.notices ++ [⟨l.number, tod, n⟩], number := l.number + 1 }

/-- A notice is lost to a full queue (R183). -/
def LostRecord.add (r : LostRecord) (tod : Stamp) (n : Notice) : LostRecord :=
  { count := saturate r.count, kinds := r.kinds ||| (1#16 <<< n.kind),
    first := if r.count = 0 then tod else r.first }

/-- After a removal from the queue, a lost notice record that counts is reported in the freed place (R183). -/
def Link.reportLost (l : Link) (tod : Stamp) : Link :=
  if l.lost.count = 0 then l
  else ({ l with lost := .zero }).join tod (.noticesLost l.lost.count l.lost.kinds l.lost.first)

/-! ### Transmitter (R184, R181) -/

/-- The transmitter, when idle, begins the reply in the slot, or else the head notice (R184). Beginning a reply
empties the slot, and a handler in REPLY_HELD returns to IDLE and takes the next request (R181); a HALTED one
stays HALTED. -/
def Link.begin (l : Link) (tod : Stamp) : Link :=
  match l.tx, l.slot, l.notices with
  | some _, _, _ => l
  | none, some r, _ =>
    ({ l with tx := some (.reply r), slot := none,
              handler := if l.handler = Handler.replyHeld then Handler.idle else l.handler }).takeNext
  | none, none, n :: rest => ({ l with tx := some (.notice n), notices := rest }).reportLost tod
  | none, none, [] => l

/-- A notice is queued at an event: masked, joined or lost (R182, R183, R196); an idle transmitter begins. -/
def Link.notify (l : Link) (tod : Stamp) (n : Notice) : Link :=
  if l.passes n then
    if l.notices.length < Config.noticeCapacity then (l.join tod n).begin tod
    else { l with lost := l.lost.add tod n }
  else l

/-- A notice is queued at an event of the part. -/
def State.notify (s : State) (n : Notice) : State := { s with link := s.link.notify s.time.tod n }

/-- Several notices of one event, in order (R182). -/
def State.notifyAll (s : State) (ns : List Notice) : State := ns.foldl State.notify s

/-! ### Executing a request (R180, R181) -/

/-- What a request's execution answers. -/
structure Answer where
  result : Result
  data   : List Byte
  deriving DecidableEq, Repr

/-- OK with reply data. -/
def Answer.ok (data : List Byte) : Answer := ⟨.ok, data⟩
/-- A result without data. -/
def Answer.bare (r : Result) : Answer := ⟨r, []⟩

/-- The reply to a request: only OK and ACCEPTED carry data (R180); the code is the first payload byte, or 00h
(R179). -/
def replyTo (q : Req) (a : Answer) : Reply :=
  { tag := q.tag, code := q.payload.headD 0, result := a.result,
    data := if a.result = .ok ∨ a.result = .accepted then a.data else [] }

/-- The handler once a reply is placed: REPLY_HELD, or HALTED for an accepted RESTART (R180, R185). -/
def heldHandler (halt : Bool) : Handler := if halt then .halted else .replyHeld

/-- The reply is placed in the slot; an idle transmitter begins it (R180, R184). -/
def Link.place (l : Link) (tod : Stamp) (r : Reply) (halt : Bool) : Link :=
  ({ l with slot := some r, handler := heldHandler halt }).begin tod

/-- The transmitter is taken for a reply that is placed before the notices of its event (R184). -/
def Link.reserve (l : Link) : Link := { l with tx := some (.reply ⟨0, 0, .ok, []⟩) }

/-- The reply for which the transmitter was taken is the frame being sent; its slot is empty again and the
handler IDLE, or HALTED (R181). -/
def Link.sendReserved (l : Link) (r : Reply) (halt : Bool) : Link :=
  ({ l with tx := some (.reply r), handler := if halt then Handler.halted else Handler.idle }).takeNext

/-- One execution that ends in a reply (R180): the body acts and answers, and the reply is placed at the same
event. When the transmitter is idle, a free value decides whether the reply or the notices of the event are
taken first (R184, log 5). -/
def State.answer (s : State) (q : Req) (halt : Bool) (body : State → State × Answer) : State :=
  if s.link.tx = none ∧ Config.replyFirst s.freeKey = true then
    let r := body { s with link := s.link.reserve, freeKey := s.freeKey + 1 }
    { r.1 with link := r.1.link.sendReserved (replyTo q r.2) halt }
  else
    let r := body { s with freeKey := s.freeKey + 1 }
    { r.1 with link := r.1.link.place r.1.time.tod (replyTo q r.2) halt }

/-- The request handler has this request in hand, and it does not wait for a record read (R179). -/
def State.inHand (s : State) (q : Req) : Prop := s.link.handler = .executing q ∧ s.store.read = none

/-- The event of a request row. When the request is in hand, it is executed. Otherwise the row stands for the
request arriving as a whole: it is offered to the queue (R178), and executed when the handler, IDLE before,
takes it at once (R179) (log 4). -/
def State.request (s : State) (q : Req) (run : State → State) : State :=
  if s.link.handler = .executing q ∧ s.store.read = none then run s
  else
    let s1 := { s with link := s.link.offer q }
    if s.link.handler = .idle ∧ s1.link.handler = .executing q then run s1 else s1

/-- The request of a request row. -/
def reqOf (i : Instr) : Req := i.request?.getD ⟨0, []⟩

/-- A request row whose execution is one event with a reply (R180). -/
def State.serve (s : State) (i : Instr) (body : State → State × Answer) : State :=
  s.request (reqOf i) fun s => s.answer (reqOf i) false body

/-! ### The receive hunter (R174 to R176) -/

/-- LENGTH of a header of four bytes that is accepted (R174). -/
def headerLength (h : List Byte) : Option Nat :=
  let len := leNat (h.take 2)
  if leNat (h.drop 2) = len ^^^ 0xFFFF ∧ len ≤ Config.maxPayload then some len else none

/-- The bytes after a rejected SYNC taken again, in HUNT (R174). -/
def retake : List Byte → Hunter
  | [] => .hunt
  | b :: rest => if b = syncByte then .header rest else retake rest

/-- A whole frame (R175): `frame` is its bytes from offset 1 on. -/
def Link.wholeFrame (l : Link) (length : Nat) (frame : List Byte) : Link :=
  let l := { l with hunter := .hunt }
  if crcAt frame (6 + length) ≠ crc16 (frame.take (6 + length)) then
    { l with counters := { l.counters with badCheck := saturate l.counters.badCheck } }
  else if byteAt frame 4 = kindRequest then
    l.offer ⟨byteAt frame 5, (frame.drop 6).take length⟩
  else { l with counters := { l.counters with otherKind := saturate l.counters.otherKind } }

/-- A received byte in HUNT, HEADER or BODY (R174, R175). -/
def Link.receive (l : Link) (b : Byte) : Link :=
  match l.hunter with
  | .hunt => if b = syncByte then { l with hunter := .header [] } else l
  | .header h =>
    let h := h ++ [b]
    if h.length < 4 then { l with hunter := .header h }
    else
      match headerLength h with
      | some len => { l with hunter := .body len h }
      | none =>
        { l with hunter := retake h,
                 counters := { l.counters with badEnvelope := saturate l.counters.badEnvelope } }
  | .body len f =>
    let f := f ++ [b]
    if f.length < len + 8 then { l with hunter := .body len f } else l.wholeFrame len f

/-- A broken byte (R176): it discards a frame in progress, and in HUNT is passed over. -/
def Link.receiveBroken (l : Link) : Link :=
  match l.hunter with
  | .hunt => l
  | .header _ | .body _ _ =>
    { l with hunter := .hunt,
             counters := { l.counters with badEnvelope := saturate l.counters.badEnvelope } }

/-- The inter-byte timeout expires (R176): the frame in progress is dropped and counted. -/
def Link.expire (l : Link) : Link :=
  { l with hunter := .hunt, counters := { l.counters with timeout := saturate l.counters.timeout } }

/-- A byte that completes more than 1 ms after the byte before it comes after the expiry (R176); at 1 ms the two
fall together, and the row taken decides. -/
def Link.expireBefore (l : Link) (now : Stamp) : Link :=
  if l.hunter ≠ .hunt ∧ Config.interByteLimit < microsSince now l.lastByteAt then l.expire else l

/-- HOST_BYTE_RECEIVED (R174 to R178); a broken byte is `none` (log 26). -/
def execHostByteReceived (byte : Option Byte) (s : State) : Host.Outcome State Fault Refusal :=
  let l := s.link.expireBefore s.time.elapsed
  match byte with
  | some b => .next { s with link := { l with lastByteAt := s.time.elapsed }.receive b }
  | none => .next { s with link := l.receiveBroken }

/-- INTER_BYTE_TIMEOUT (R176): inside a frame, 1 ms after the last byte's completion. In HUNT no such timer runs
and nothing happens (log 1). -/
def execInterByteTimeout (s : State) : Host.Outcome State Fault Refusal :=
  match s.link.hunter with
  | .hunt => .next s
  | .header _ | .body _ _ =>
    let s := s.advanceTo (pointAfterUs s.link.lastByteAt Config.interByteLimit)
    .next { s with link := s.link.expire }

/-- UNKNOWN_REQUEST (R179): answered BAD_REQUEST, no state changed. A payload that is a request's is no
UNKNOWN_REQUEST, and nothing happens (log 1). -/
def execUnknownRequest (tag : Byte) (payload : List Byte) (s : State) : Host.Outcome State Fault Refusal :=
  if payloadKnown payload then .next s
  else .next (s.serve (.unknownRequest tag payload) fun s => (s, .bare .badRequest))

end Sys2Proof.Machine
end

