-- ==== Sys2Proof/Machine/Capture.lean ====
section
/-! DEFINITION. The capture memory controller (spec/02): pages, frame slots, histories, places, reclaim, pool
pressure; and what every event announces of lines and pressure. -/

namespace Sys2Proof.Machine

/-! ### Frame slots and pages (R25 to R28) -/

/-- Free count (R25). -/
def Capture.freeCount (c : Capture) : Nat := c.free.length

/-- The frame a slot holds. -/
def Capture.frame? (c : Capture) (id : Nat) : Option Frame := lookupKey id c.slots

/-- Put a frame into its slot. -/
def Capture.putFrame (c : Capture) (id : Nat) (f : Frame) : Capture :=
  { c with slots := insertKey id f c.slots }

/-- Change the frame a slot holds. -/
def Capture.modFrame (c : Capture) (id : Nat) (g : Frame → Frame) : Capture :=
  match c.frame? id with
  | some f => c.putFrame id (g f)
  | none => c

/-- Free a frame: its pages to the tail of the free page list in chain order, its slot FREE (R28). -/
def Capture.freeFrame (c : Capture) (id : Nat) : Capture :=
  match c.frame? id with
  | some f => { c with free := c.free ++ f.pages, slots := eraseKey id c.slots }
  | none => c

/-- A frame is left with no place: freed with a pin count of 0, and DETACHED otherwise (R28). -/
def Capture.leave (c : Capture) (id : Nat) : Capture :=
  match c.frame? id with
  | some f => if f.pins = 0 then c.freeFrame id else c.putFrame id { f with place := .detached }
  | none => c

/-- A pin claim (R36). -/
def Capture.pin (c : Capture) (id : Nat) : Capture := c.modFrame id fun f => { f with pins := f.pins + 1 }

/-- An unpin claim: a DETACHED frame left at 0 is freed (R37). -/
def Capture.unpin (c : Capture) (id : Nat) : Capture :=
  match c.frame? id with
  | some f =>
    let c := c.putFrame id { f with pins := f.pins - 1 }
    if f.place = .detached ∧ f.pins - 1 = 0 then c.freeFrame id else c
  | none => c

/-- The address of stored byte `k` of a frame, counted from 0 (R27). -/
def pageAddress (pages : List Nat) (k : Nat) : Nat :=
  pages.getD (k / Config.pageSize) 0 * Config.pageSize + k % Config.pageSize

/-- The stored bytes of a frame, in order, through the page chain (R46). -/
def Capture.frameBytes (c : Capture) (f : Frame) : List Byte :=
  (List.range f.length).map fun k => c.mem.read (pageAddress f.pages k)

/-! ### Exhaustion (R39 to R41) -/

/-- The reclaim candidates, by line and then by place in the history (R39). -/
def Capture.candidates (c : Capture) (lines : Vector Line 8) : List (Fin 8 × Nat × Stamp) :=
  allLines.flatMap fun i =>
    if lines[i].cfg.policy = .ring then
      (c.hist[i]).filterMap fun id =>
        match c.frame? id with
        | some f => if f.pins = 0 then some (i, id, f.start) else none
        | none => none
    else []

/-- The oldest of a list of candidates: smallest start time, the first among equals (R39). -/
def oldestOf : List (Fin 8 × Nat × Stamp) → Option (Fin 8 × Nat × Stamp)
  | [] => none
  | a :: rest =>
    match oldestOf rest with
    | some b => if b.2.2 < a.2.2 then some b else some a
    | none => some a

/-- Reclaim the oldest candidate: out of its history and freed (R40). -/
def Capture.reclaim (c : Capture) (lines : Vector Line 8) : Capture :=
  match oldestOf (c.candidates lines) with
  | some (i, id, _) => ({ c with hist := c.hist.set i ((c.hist[i]).filter (· != id)) }).freeFrame id
  | none => c

/-- A page claim: the head of the free page list, after a reclaim when the list is empty (R26, R27, R40). None
when nothing can be reclaimed (R41). -/
def Capture.grantPage (c : Capture) (lines : Vector Line 8) : Option (Nat × Capture) :=
  match c.free with
  | p :: rest => some (p, { c with free := rest })
  | [] =>
    let c := c.reclaim lines
    match c.free with
    | p :: rest => some (p, { c with free := rest })
    | [] => none

/-- A frame in reception before its completion (R26); what R26 does not set until then is 0, NONE and no flag
(log 36). -/
def Frame.begun (line : Fin 8) (page : Nat) : Frame :=
  { line := line, seq := 0, start := 0, duration := 0, length := 1, pages := [page], check := .noCheck,
    flags := ⟨false, false, false, false⟩, matchSet := 0, pins := 0, place := .inReception }

/-- The slot claim at a frame's first stored byte: the lowest-numbered FREE slot (R26). -/
def Capture.storeFirst (c : Capture) (lines : Vector Line 8) (line : Fin 8) (b : Byte) :
    Option (Nat × Capture) :=
  match c.grantPage lines with
  | some (p, c) =>
    let id := lowestFree 0 c.slots
    some (id, { c with slots := insertKey id (.begun line p) c.slots,
                       mem := c.mem.write (p * Config.pageSize) b })
  | none => none

/-- A further stored byte of the frame in a slot (R27): it claims a page when it falls beyond the pages held. -/
def Capture.storeNext (c : Capture) (lines : Vector Line 8) (id : Nat) (b : Byte) : Option Capture :=
  match c.frame? id with
  | none => none
  | some f =>
    if f.length % Config.pageSize = 0 then
      match c.grantPage lines with
      | some (p, c) =>
        some { (c.putFrame id { f with length := f.length + 1, pages := f.pages ++ [p] }) with
               mem := c.mem.write (p * Config.pageSize) b }
      | none => none
    else
      some { (c.putFrame id { f with length := f.length + 1 }) with
             mem := c.mem.write (pageAddress f.pages f.length) b }

/-! ### Pool pressure (R42 to R44, R18) and line states (R20) -/

/-- A line enters a state; entering SUSPENDED or SHED sets the attention flag (R20, R200; at START_LINE,
log 33). -/
def Line.enter (l : Line) (st : LineState) : Line :=
  { l with state := st, attention := l.attention || st == .suspended || st == .shed }

/-- What a change of pool pressure does to one line (R18). -/
def Line.underPressure (on : Bool) (l : Line) : Line :=
  if on then (if l.state = .active ∧ l.cfg.sheddable = true then l.enter .shed else l)
  else (if l.state = .shed then l.enter .active else l)

/-- Pool pressure takes a value; a change moves the lines (R44). -/
def State.setPressure (s : State) (on : Bool) : State :=
  if on = s.capture.pressure then s
  else { s with capture := { s.capture with pressure := on },
                lines := vmap s.lines fun _ l => l.underPressure on }

/-- Pool pressure is evaluated after an event that changed the free count (R43). -/
def State.evalPressure (old s : State) : State :=
  if s.capture.freeCount = old.capture.freeCount then s
  else s.setPressure (pressureAfter s.capture.pressure s.capture.freeCount s.capture.lowMark)

/-- EVT_OUT is re-evaluated (R93). -/
def State.evalEvtOut (s : State) : State :=
  { s with inc := { s.inc with evtOut := decide (0 < collectingCount s.inc) } }

/-- The LINE_STATE notices of an event: one for each line whose state it changed, lowest line first (R20,
R200). -/
def lineNotices (old s : State) : List Notice :=
  allLines.filterMap fun i =>
    if old.lines[i].state = s.lines[i].state then none
    else some (.lineState i s.lines[i].state old.lines[i].state s.lines[i].attention)

/-- The POOL_PRESSURE notice of an event that changed the pressure (R44). -/
def pressureNotices (old s : State) : List Notice :=
  if old.capture.pressure = s.capture.pressure then []
  else [.poolPressure s.capture.pressure s.capture.freeCount s.capture.lowMark]

/-- What an event announces once it has been taken whole: EVT_OUT, LINE_STATE, then POOL_PRESSURE (R93, R200;
against other notices, log 16). -/
def State.announce (old s : State) : State :=
  s.evalEvtOut.notifyAll (lineNotices old s ++ pressureNotices old s)

/-- The end of an event that may change the free count: pressure, then what it announces. -/
def State.conclude (old s : State) : State := State.announce old (State.evalPressure old s)

/-! ### Classification claims (R29 to R33) -/

/-- A drop claim (R29), counted in dropped (R15). -/
def State.dropClaim (s : State) (i : Fin 8) (id : Nat) : State :=
  ({ s with capture := s.capture.leave id }).modLine i fun l =>
    { l with counters := { l.counters with dropped := l.counters.dropped + 1 } }

/-- A frame is appended to its line's history (R30), counted in kept (R15). -/
def State.append (s : State) (i : Fin 8) (id : Nat) : State :=
  let c := { s.capture with hist := s.capture.hist.set i (s.capture.hist[i] ++ [id]) }
  ({ s with capture := c.modFrame id fun f => { f with place := .inHistory } }).modLine i fun l =>
    { l with counters := { l.counters with kept := l.counters.kept + 1 } }

/-- A keep claim at a RING line: append, and displace the oldest at the depth (R31). -/
def State.keepRing (s : State) (i : Fin 8) (id : Nat) : State :=
  match s.capture.hist[i] with
  | oldest :: rest =>
    if s.lines[i].cfg.depth ≤ rest.length + 1 then
      let c := { s.capture with hist := s.capture.hist.set i rest }
      ({ s with capture := c.leave oldest }).append i id
    else s.append i id
  | [] => s.append i id

/-- The frames of a line's history and handed-out list together (R19). -/
def Capture.total (c : Capture) (i : Fin 8) : Nat := (c.hist[i]).length + (c.handed[i]).length

/-- The line is SUSPENDED at the append that reaches its limit (R19, R32). -/
def Line.suspendAt (l : Line) (total : Nat) : Line :=
  if total = l.cfg.depth ∧ (l.state = .active ∨ l.state = .shed) then l.enter .suspended else l

/-- The sequence number of the frame in a slot. -/
def Capture.seqOf (c : Capture) (id : Nat) : Half := ((c.frame? id).map (·.seq)).getD 0

/-- A keep claim at a FEED line: append below the limit, with SUSPENDED at it and FEED_READY on an empty history
(R32, R161), its line state the one after the append, before a STOPPING line's step to STOPPED (log 39); at the limit the frame is left with no place (R33). -/
def State.keepFeed (s : State) (i : Fin 8) (id : Nat) : State :=
  if s.capture.total i < s.lines[i].cfg.depth then
    let was := s.capture.hist[i]
    let s := (s.append i id).modLine i fun l => l.suspendAt (s.capture.total i + 1)
    if was = [] then
      s.notify (.feedReady i (s.capture.seqOf id) 1 (s.capture.handed[i]).length s.lines[i].state)
    else s
  else
    match s.capture.frame? id with
    | some f => if f.pins = 0 then s.dropClaim i id else { s with capture := s.capture.leave id }
    | none => s

/-- A keep claim, by the history policy of the line's configuration (R30). -/
def State.keepClaim (s : State) (i : Fin 8) (id : Nat) : State :=
  match s.lines[i].cfg.policy with
  | .ring => s.keepRing i id
  | .feed => s.keepFeed i id

/-! ### Taking, releasing, emptying (R34, R35, R38) -/

/-- Move the `n` oldest frames of a history to the handed-out list (R34). -/
def Capture.take (c : Capture) (i : Fin 8) (n : Nat) : Capture :=
  let moved := (c.hist[i]).take n
  let c := moved.foldl (fun c id => c.modFrame id fun f => { f with place := .handedOut }) c
  { c with hist := c.hist.set i ((c.hist[i]).drop n), handed := c.handed.set i (c.handed[i] ++ moved) }

/-- Remove the `n` oldest frames of the handed-out list, each freed or DETACHED (R35). -/
def Capture.release (c : Capture) (i : Fin 8) (n : Nat) : Capture :=
  let gone := (c.handed[i]).take n
  gone.foldl Capture.leave { c with handed := c.handed.set i ((c.handed[i]).drop n) }

/-- Empty a history, oldest first (R38). -/
def Capture.emptyHistory (c : Capture) (i : Fin 8) : Capture :=
  (c.hist[i]).foldl Capture.leave { c with hist := c.hist.set i [] }

/-- A release that brings a SUSPENDED line below its limit: SHED under pressure when sheddable, else ACTIVE
(R35, R19). -/
def Line.resume (l : Line) (total : Nat) (pressure : Bool) : Line :=
  if l.state = .suspended ∧ total < l.cfg.depth then
    l.enter (if pressure && l.cfg.sheddable then .shed else .active)
  else l

/-! ### SET_POOL_MARK (R45) -/

/-- The body of SET_POOL_MARK. -/
def setPoolMarkBody (mark : Half) (s : State) : State × Answer :=
  if 512 < mark.toNat then (s, .bare .badArgument)
  else
    let s1 := { s with capture := { s.capture with lowMark := mark.toNat } }
    let s2 := s1.setPressure (pressureAfter s1.capture.pressure s1.capture.freeCount s1.capture.lowMark)
    let s3 := State.announce s s2
    (s3, .ok (u16 s3.capture.lowMark ++ [boolByte s3.capture.pressure] ++ u16 s3.capture.freeCount))

/-- SET_POOL_MARK (R45). -/
def execSetPoolMark (tag : Byte) (mark : Half) (s : State) : Host.Outcome State Fault Refusal :=
  .next (s.serve (.setPoolMark tag mark) (setPoolMarkBody mark))

end Sys2Proof.Machine
end

