-- ==== Sys2Proof/Machine/Incidents.lean ====
section
/-! DEFINITION. The operations of the incident unit (spec/04): ids, the ordering and the byte budget of frame
lists, opening, attachment, closing, and the terminal moves. -/

namespace Sys2Proof.Machine

/-! ### Ids (R72) -/

/-- The value after an id, from 65535 to 1. -/
def nextId (id : Half) : Half := if id = 0xFFFF#16 then 1 else id + 1

/-- The first value from a counter on that none of the ids in use is; four incidents at most are in use. -/
def freshId (used : List Half) : Nat → Half → Half
  | 0, c => c
  | fuel + 1, c => if c ∈ used then freshId used fuel (nextId c) else c

/-- The ids of the incidents in the table. -/
def Incidents.ids (u : Incidents) : List Half := allSlots.filterMap fun k => (u.table[k]).map (·.id)

/-- The lowest free incident slot, if any (log 24). -/
def Incidents.freeSlot (u : Incidents) : Option (Fin 4) := allSlots.find? fun k => (u.table[k]).isNone

/-- The slot of the incident with an id. -/
def Incidents.slotOf (u : Incidents) (id : Half) : Option (Fin 4) :=
  allSlots.find? fun k => (u.table[k]).any fun i => i.id == id

/-! ### The frame list (R76, R77) -/

/-- A length rounded up to a multiple of 4 (R77). -/
def roundUp4 (n : Nat) : Nat := (n + 3) / 4 * 4

/-- What a frame costs of the byte budget (R77). -/
def Capture.cost (c : Capture) (id : Nat) : Nat := 24 + roundUp4 (((c.frame? id).map (·.length)).getD 0)

/-- Whether a frame stands before another by start time, then by line number (R76). -/
def frameBefore (a b : Frame) : Bool := decide (a.start < b.start) || (a.start == b.start && decide (a.line < b.line))

/-- Whether the frame in slot `b` stands before the one in slot `a`, by R76 for frames of different key. -/
def Capture.isBefore (c : Capture) (b a : Nat) : Bool :=
  match c.frame? b, c.frame? a with
  | some g, some f => frameBefore g f
  | _, _ => false

/-- Place a frame in an ordered list, behind every frame that does not stand after it (R76). -/
def Capture.place (c : Capture) (id : Nat) : List Nat → List Nat
  | [] => [id]
  | x :: rest => if c.isBefore id x then id :: x :: rest else x :: c.place id rest

/-- Frames in the order of R76; frames of one line and start time keep the order they come in. -/
def Capture.ordered (c : Capture) (ids : List Nat) : List Nat := ids.foldl (fun acc id => c.place id acc) []

/-- The last `n` elements. -/
def lastN {α : Type} (n : Nat) (l : List α) : List α := l.drop (l.length - n)

/-- The pre-window candidates of one line: the `n` most recent frames of its lists; on a line other than the
trigger line, of those that precede the trigger frame (R74, R75). -/
def Capture.lineCandidates (c : Capture) (n : Nat) (trigger : Option Frame) (i : Fin 8) : List Nat :=
  let both := c.handed[i] ++ c.hist[i]
  match trigger with
  | none => lastN n both
  | some t =>
    if t.line = i then lastN n both
    else lastN n (both.filter fun id => (c.frame? id).any fun f => frameBefore f t)

/-- Admission newest first within the byte budget (R77): the frames admitted, oldest first behind `acc`, the
budget used, and PRE_TRIMMED. -/
def Capture.admitNewest (c : Capture) (acc : List Nat) (used : Nat) : List Nat → List Nat × Nat × Bool
  | [] => (acc, used, false)
  | id :: older =>
    if used + c.cost id ≤ Config.byteBudget then c.admitNewest (id :: acc) (used + c.cost id) older
    else (acc, used, true)

/-! ### Opening (R73 to R75) -/

/-- What opens an incident. -/
structure OpenRequest where
  source  : Source
  entry   : Fin 16
  trigger : Option (Fin 8 × Half)
  frame   : Option Nat
  time    : Stamp
  deriving DecidableEq, Repr

/-- The frames attached at an opening, in order, with the budget used and PRE_TRIMMED (R74, R75, R77). -/
def Capture.preWindow (c : Capture) (set : Byte) (n : Nat) (frame : Option Nat) : List Nat × Nat × Bool :=
  let trigger := frame.bind c.frame?
  let ids := (allLines.filter fun i => inSet set i.val).flatMap (c.lineCandidates n trigger)
  let used := (frame.map c.cost).getD 0
  let r := c.admitNewest [] used (c.ordered ids).reverse
  match frame with
  | some id => (c.place id r.1, r.2)
  | none => r

/-- The incident that a request opens (R73). -/
def State.newIncident (s : State) (r : OpenRequest) (id : Half) : Incident :=
  let t := (s.matcher.entries[r.entry]).body
  let w := s.capture.preWindow t.captureSet t.preCount.toNat r.frame
  { id := id, source := r.source, entry := r.entry, trigger := r.trigger, triggerTime := r.time,
    captureSet := t.captureSet, preCount := t.preCount.toNat, postCount := t.postCount.toNat,
    postTime := t.postTime.toNat, state := .collecting, frames := w.1, budget := w.2.1, postFrames := 0,
    closeReason := none, preTrimmed := w.2.2, retried := false, cancelPending := false, serial := none,
    postTimer := if t.postTime = 0 then none else some (pointAfterMs s.time.elapsed t.postTime.toNat) }

/-- An incident closes: QUEUED at the tail of the commit queue, its post timer absent, INCIDENT_CLOSED (R84). -/
def State.closeIncident (s : State) (k : Fin 4) (reason : CloseReason) : State :=
  match s.inc.table[k] with
  | some i =>
    let s := s.setIncident k (some { i with state := .queued, closeReason := some reason, postTimer := none })
    ({ s with inc := { s.inc with queue := s.inc.queue ++ [k] } }).notify
      (.incidentClosed i.id reason i.frames.length i.budget i.postFrames i.preTrimmed i.retried)
  | none => s

/-- An opening in a free slot (R73): incident, pins, INCIDENT_OPENED, and the close of a post-window of count
and time 0 (R83). None when no slot is free. -/
def State.openIncident (s : State) (r : OpenRequest) : Option State :=
  match s.inc.freeSlot with
  | none => none
  | some k =>
    let id := freshId s.inc.ids 4 s.inc.idCounter
    let i := s.newIncident r id
    let s1 := { s with
      capture := i.frames.foldl Capture.pin s.capture
      inc := { s.inc with table := s.inc.table.set k (some i), opened := s.inc.opened ++ [k],
                          idCounter := nextId id } }
    let s2 := s1.notify (.incidentOpened id r.source r.entry r.trigger r.time i.captureSet i.frames.length
      i.budget i.preTrimmed)
    some (if i.postCount = 0 ∧ i.postTime = 0 then s2.closeIncident k .count else s2)

/-! ### The post-window (R81, R82) -/

/-- A kept frame offered to one incident (R81, R82). -/
def State.offerFrame (s : State) (id : Nat) (line : Fin 8) (k : Fin 4) : State :=
  match s.inc.table[k] with
  | none => s
  | some i =>
    if i.state = .collecting ∧ inSet i.captureSet line.val = true ∧ id ∉ i.frames then
      if Config.byteBudget < i.budget + s.capture.cost id then s.closeIncident k .full
      else
        let i' := { i with frames := s.capture.place id i.frames, budget := i.budget + s.capture.cost id,
                           postFrames := i.postFrames + 1 }
        let s1 := ({ s with capture := s.capture.pin id }).setIncident k (some i')
        if i.postCount ≠ 0 ∧ i'.postFrames = i.postCount then s1.closeIncident k .count else s1
    else s

/-- A kept-frame arrival: offered to the incidents in their order of opening (R60, R81). -/
def State.arrive (s : State) (id : Nat) (line : Fin 8) : State :=
  s.inc.opened.foldl (fun s k => s.offerFrame id line k) s

/-! ### Terminal moves (R71, R89, R91) -/

/-- The incident in a slot ends: every frame unpinned, in the order of its frame list (log 35), the slot free, out of
the queues (R71). -/
def State.endIncident (s : State) (k : Fin 4) (i : Incident) : State :=
  { s with
    capture := i.frames.foldl Capture.unpin s.capture
    inc := { s.inc with table := s.inc.table.set k none, opened := s.inc.opened.filter (· != k),
                        queue := s.inc.queue.filter (· != k) } }

/-- The serial INCIDENT_LOST carries (R95). -/
def Incident.lostSerial (i : Incident) : Word :=
  if i.state = .committing then i.serial.getD 0xFFFFFFFF#32 else 0xFFFFFFFF#32

/-- An incident becomes ABANDONED (R89). -/
def State.abandon (s : State) (k : Fin 4) (reason : AbandonReason) : State :=
  match s.inc.table[k] with
  | some i =>
    (s.endIncident k i).notify
      (.incidentLost i.id reason i.state i.frames.length i.retried i.lostSerial)
  | none => s

end Sys2Proof.Machine
end

