-- ==== Sys2Proof/Machine/Store.lean ====
section
/-! DEFINITION. The store controller (spec/05): the sector table, the beginning of array operations, the answers
to the record manager, and the requests that need no grant. -/

namespace Sys2Proof.Machine

/-! ### The sector table (R103 to R106, R126) -/

/-- A reclaim candidate (R106). The commit's sector is OPEN or about to be, so it is never one. -/
def Sector.reclaimable (x : Sector) : Bool :=
  x.protection == .unlocked && (x.state == .dirty || (x.state == .full && x.live == 0))

/-- Erase pending is set at an event that makes the sector a reclaim candidate (R106). -/
def Sector.settle (x : Sector) : Sector := if x.reclaimable then { x with pending := true } else x

/-- An OPEN sector is closed (R126); any other sector stays as it is. -/
def Sector.close (x : Sector) : Sector :=
  if x.state = .opened then
    { x with state := .full, fillOffset := none,
             dead := x.dead + (Config.sectorSize - x.fillOffset.getD Config.sectorSize) }.settle
  else x

/-- The effects of the beginning of an erase on its sector (R104, R139). -/
def Sector.startErase (x : Sector) : Sector :=
  { x with state := .erasing, pending := false, fillOffset := none, live := 0, eraseComplete := false }

/-- An erase that passed its verify (R105, R139): ERASED and blank. -/
def Sector.erasedWell (x : Sector) : Sector :=
  { x with mem := ⟨.blank, []⟩, eraseComplete := true, state := .erased, seq := none, live := 0, dead := 0 }

/-- An erase that failed its verify or timed out (R105): RETIRED, its contents free values (log 10). -/
def Sector.erasedBadly (key : Nat) (x : Sector) : Sector :=
  { x with mem := ⟨.undef key, []⟩, state := .retired, seq := none, live := 0, dead := 0 }

/-- A sector header that passed its verify (R127): OPEN with an empty body. -/
def Sector.opened (seq : Word) (x : Sector) : Sector :=
  { x with state := .opened, seq := some seq, fillOffset := some Config.bodyStart, live := 0, dead := 0 }

/-- A sector header that failed its verify (R127): DIRTY. -/
def Sector.spoilt (x : Sector) : Sector := { x with state := .dirty }.settle

/-- Room left in an OPEN sector (R125). -/
def Sector.room (x : Sector) : Nat := Config.sectorSize - x.fillOffset.getD Config.sectorSize

/-! ### Answers to the record manager (R108) -/

/-- The OPEN sector; at most one is (R100). -/
def Store.openSector (st : Store) : Option (Fin 64) := allSectors.find? fun x => st.sectors[x].state == .opened

/-- The sector to open: the lowest that is ERASED, UNLOCKED and without erase pending. -/
def Store.toOpen (st : Store) : Option (Fin 64) :=
  allSectors.find? fun x =>
    st.sectors[x].state == .erased && st.sectors[x].protection == .unlocked && !st.sectors[x].pending

/-- Of two sectors, the one to overwrite first: lower sequence, the first among equals. -/
def Store.older (st : Store) (a b : Fin 64) : Fin 64 :=
  if (st.sectors[b].seq.getD 0) < (st.sectors[a].seq.getD 0) then b else a

/-- The sector to overwrite: FULL, UNLOCKED, of lowest sequence, the lowest-numbered among equals. -/
def Store.toOverwrite (st : Store) : Option (Fin 64) :=
  match allSectors.filter fun x => st.sectors[x].state == .full && st.sectors[x].protection == .unlocked with
  | [] => none
  | a :: rest => some (rest.foldl st.older a)

/-- The lowest-numbered sector with erase pending and no item in the host work list (R107). -/
def Store.toReclaim (st : Store) : Option (Fin 64) :=
  allSectors.find? fun x => st.sectors[x].pending && !st.work.any fun i => i.sector == x

/-- The sector whose header the commit is programming (R127). -/
def Records.opening (r : Records) : Option (Fin 64) :=
  r.commit.bind fun c =>
    match c.phase with
    | .reservation (some (x, _)) => some x
    | _ => none

/-- Whether a sector is the commit's sector (R108). -/
def State.commitSector (s : State) (x : Fin 64) : Bool :=
  s.store.holder == some .commit && (s.store.sectors[x].state == .opened || s.records.opening == some x)

/-! ### Beginning and faulting operations (R98, R99, R104, R115) -/

/-- A program unit begins (R98). -/
def State.startUnit (s : State) (x : Fin 64) (offset : Nat) (bytes : List Byte) (cause : Cause)
    (serial : Option Word) : State :=
  { s with store := { s.store with op := some (.program ⟨x, offset, bytes, cause, serial, s.time.elapsed⟩) } }

/-- An erase begins (R104). -/
def State.startErase (s : State) (x : Fin 64) (cause : Cause) : State :=
  let s := s.modSector x Sector.startErase
  { s with store := { s.store with
      work := s.store.work.filter fun i => i.sector != x
      op := some (.erase ⟨x, cause, 0, some s.time.elapsed⟩) } }

/-- PROGRAM_FAIL is set and STORE_FAULT queued (R115). -/
def State.programFault (s : State) (p : ProgramOp) : State :=
  let f := { s.store.faults with programFail := true }
  ({ s with store := { s.store with faults := f } }).notify
    (.storeFault true p.sector p.offset p.cause (p.serial.getD 0xFFFFFFFF#32) f)

/-- ERASE_FAIL is set and STORE_FAULT queued (R105, R115). -/
def State.eraseFault (s : State) (e : EraseOp) : State :=
  let f := { s.store.faults with eraseFail := true }
  ({ s with store := { s.store with faults := f } }).notify
    (.storeFault false e.sector 0xFFFF e.cause 0xFFFFFFFF#32 f)

/-- The store-full mark is cleared (R130). -/
def State.clearFull (s : State) : State := { s with records := { s.records with full := none } }

/-- The array leaves its holder (R101). -/
def State.dropHolder (s : State) : State := { s with store := { s.store with holder := none } }

/-! ### GET_STORE_STATUS (R116, R190) -/

/-- The number of sectors in a state. -/
def Store.countIn (st : Store) (v : SectorState) : Nat :=
  (allSectors.filter fun x => st.sectors[x].state == v).length

/-- The array holder's code. -/
def holderCode (h : Option Holder) : Byte :=
  match h with
  | none => 0 | some .commit => 1 | some .hostItem => 2 | some .background => 3

/-- The operation in progress: kind, sector, cause, suspended. -/
def opBytes (op : Option ArrayOp) : List Byte :=
  match op with
  | none => [0, 0xFF#8, 0xFF#8, 0]
  | some (.erase e) => [1] ++ u8 e.sector.val ++ [e.cause.code, boolByte e.since.isNone]
  | some (.program p) => [2] ++ u8 p.sector.val ++ [p.cause.code, 0]

/-- One work item: kind and sector. -/
def WorkItem.bytes : WorkItem → List Byte
  | .erase x => 0 :: u8 x.val
  | .mark _ x _ => 1 :: u8 x.val

/-- One sector description. While SCANNING only the protection is reported, the rest zero. -/
def Sector.bytes (scanning : Bool) (x : Sector) : List Byte :=
  if scanning then [0, x.protection.code, 0] ++ u32 0 ++ u16 0 ++ u16 0 ++ u16 0
  else
    [x.state.code, x.protection.code, boolByte x.pending] ++ encLE 4 (x.seq.getD 0xFFFFFFFF#32)
      ++ u16 (x.fillOffset.getD 0) ++ u16 x.live ++ u16 x.dead

/-- The counts of sectors in the six states; zeros while SCANNING. -/
def Store.stateCounts (st : Store) : List Byte :=
  if st.state = .scanning then List.replicate 6 0
  else ([.erased, .opened, .full, .dirty, .erasing, .retired] : List SectorState).flatMap fun v => u8 (st.countIn v)

/-- The 26-byte summary. -/
def State.storeSummary (s : State) : List Byte :=
  let scanning := s.store.state == .scanning
  [s.store.state.code, s.store.policy.code, s.store.faults.code, fullCode s.records.full]
    ++ u16 (if scanning then 0 else s.records.index.length)
    ++ (if scanning then u32 0 else encLE 4 s.records.nextSerial)
    ++ (if scanning then u32 0 else encLE 4 s.store.nextSeq)
    ++ s.store.stateCounts ++ [holderCode s.store.holder] ++ opBytes s.store.op ++ u8 s.store.work.length

/-- The reply data of GET_STORE_STATUS. -/
def State.storeStatus (s : State) : List Byte :=
  s.storeSummary ++ s.store.work.flatMap WorkItem.bytes
    ++ allSectors.flatMap fun x => s.store.sectors[x].bytes (s.store.state == .scanning)

/-- GET_STORE_STATUS (R116). -/
def execGetStoreStatus (tag : Byte) (s : State) : Host.Outcome State Fault Refusal :=
  .next (s.serve (.getStoreStatus tag) fun s => (s, .ok s.storeStatus))

end Sys2Proof.Machine
end

