-- ==== Sys2Proof/Machine/Commit.lean ====
section
/-! DEFINITION. The record manager (spec/06) and the arbiter (R107): stored formats, reservation, programming,
the ends of program units and erases, and the requests whose acceptance the arbiter answers to. -/

namespace Sys2Proof.Machine

/-! ### Stored formats (R119 to R122) -/

/-- `n` bytes left blank. -/
def blanks (n : Nat) : List Byte := List.replicate n 0xFF#8

/-- The sector magic (R119). -/
def sectorMagic : Word := 0x3C5A96C3#32
/-- The record magic (R120). -/
def recordMagic : Word := 0x5AA5C33C#32
/-- The end magic (R122). -/
def endMagic : Word := 0xC35A3CA5#32
/-- Record state BEGUN as programmed (R121). -/
def stateBegun : Byte := 0x7F#8
/-- Record state COMPLETE as programmed (R121). -/
def stateComplete : Byte := 0x3F#8
/-- Record state DISCARDED as programmed (R121). -/
def stateDiscarded : Byte := 0x0F#8
/-- Offset of the record state in a record (R120). -/
def stateOffset : Nat := 4

/-- The 64 bytes of a sector header (R119). -/
def sectorHeader (seq : Word) : List Byte :=
  let fields := encLE 4 sectorMagic ++ encLE 4 seq
  fields ++ crcBytes (crc16 fields) ++ blanks 54

/-- The fields of a record header behind its state, offsets 5 to 29 (R120). -/
def headerFields (i : Incident) (serial : Word) (size : Nat) : List Byte :=
  [i.source.code] ++ u8 i.entry.val ++ [triggerLineByte i.trigger] ++ encLE 4 serial ++ u16 size ++ encLE 2 i.id
    ++ encLE 2 (triggerSeq i.trigger) ++ time48 i.triggerTime
    ++ [i.captureSet, incidentFlags i.preTrimmed i.retried false, closeCode i.closeReason, 0xFF#8]
    ++ u16 i.frames.length

/-- The 64 bytes of a record header with a given state byte (R120); the header CRC covers every other byte
(log 20). -/
def recordHeader (state : Byte) (i : Incident) (serial : Word) (size : Nat) : List Byte :=
  let fields := headerFields i serial size
  encLE 4 recordMagic ++ [state] ++ fields ++ crcBytes (crc16 (encLE 4 recordMagic ++ fields ++ blanks 32))
    ++ blanks 32

/-- One frame entry (R122): 24 bytes of header, the stored bytes, and padding. -/
def Capture.frameEntry (c : Capture) (f : Frame) : List Byte :=
  u8 f.line.val ++ [f.check.code, f.flags.code, 0xFF#8] ++ encLE 2 f.seq ++ u16 f.length ++ encLE 2 f.matchSet
    ++ encLE 4 f.duration ++ time48 f.start ++ blanks 4 ++ c.frameBytes f
    ++ blanks (roundUp4 f.length - f.length)

/-- The frame entries of an incident, in list order. -/
def Capture.entries (c : Capture) (ids : List Nat) : List Byte :=
  ids.flatMap fun id => ((c.frame? id).map c.frameEntry).getD []

/-- The record CRC: header with the state counted as FFh, then the entries (R122). -/
def recordCrc (header entries : List Byte) : Half := crc16 (header.set stateOffset 0xFF#8 ++ entries)

/-- The end marker (R122). -/
def endMarker (serial : Word) (size : Nat) (crc : Half) : List Byte :=
  encLE 4 endMagic ++ encLE 4 serial ++ u16 size ++ crcBytes crc ++ blanks 4

/-- The record as it is programmed, before any state mark. -/
def Capture.recordImage (c : Capture) (i : Incident) (serial : Word) (size : Nat) : List Byte :=
  let header := recordHeader stateBegun i serial size
  let entries := c.entries i.frames
  header ++ entries ++ endMarker serial size (recordCrc header entries)

/-- The record size of an incident (R125). -/
def Incident.recordSize (i : Incident) : Nat := 80 + i.budget

/-- How many bytes the next unit of a record takes (R132): up to the header's end or the record's, and no
further than the end of the block. -/
def unitLength (offset done size : Nat) : Nat :=
  let at_ := offset + done
  let limit := if done < 64 then 64 - done else size - done
  min limit (Config.blockSize - at_ % Config.blockSize)

/-! ### The commit (R125 to R135) -/

/-- Set the commit in progress. -/
def State.setCommit (s : State) (c : Commit) : State := { s with records := { s.records with commit := some c } }

/-- The commit ends and the array returns to the arbiter. -/
def State.endCommit (s : State) : State := ({ s with records := { s.records with commit := none } }).dropHolder

/-- An operation of the commit begins: at once, or at the end of a record read (R102, log 18). -/
def State.whenServed (s : State) (c : Commit) (begin_ : State → State) : State :=
  if s.store.read = none then begin_ s else s.setCommit { c with waiting := true }

/-- The sector sequence after one; after the largest it is a free value (log 37). -/
def nextSequence (seq : Word) : Word := if seq = 0xFFFFFFFF#32 then Config.sequenceAfterLast else seq + 1

/-- A commit opens a sector (R127): its header is programmed with the next sector sequence. -/
def State.commitOpens (s : State) (c : Commit) (x : Fin 64) : State :=
  let seq := s.store.nextSeq
  let s := s.setCommit { c with phase := .reservation (some (x, seq)), waiting := false }
  let s := { s with store := { s.store with nextSeq := nextSequence seq } }
  s.startUnit x 0 (sectorHeader seq) .commit none

/-- The RECORDS_OVERWRITTEN notice of the entries removed (R128). -/
def overwrittenNotice (x : Fin 64) (gone : List IndexEntry) : Notice :=
  .recordsOverwritten x gone.length ((gone.head?.map (·.serial)).getD 0xFFFFFFFF#32)
    ((gone.getLast?.map (·.serial)).getD 0xFFFFFFFF#32)

/-- The total of record lengths. -/
def lengthsOf (es : List IndexEntry) : Nat := (es.map (·.length)).sum

/-- A commit overwrites a sector (R128): its entries leave the index, which is in serial order, their records are
dead bytes then (spec/05, The sector table; log 38), and its erase begins. -/
def State.commitOverwrites (s : State) (c : Commit) (x : Fin 64) : State :=
  let gone := s.records.index.filter fun e => e.sector == x
  let s := s.setCommit { c with phase := .reservation none, waiting := false }
  let s := { s with records := { s.records with index := s.records.index.filter fun e => e.sector != x } }
  let s := s.modSector x fun v => { v with dead := v.dead + lengthsOf gone }
  (s.startErase x .overwrite).notify (overwrittenNotice x gone)

/-- The number of sectors that are ERASED and UNLOCKED (R129). -/
def Store.erasedUnlocked (st : Store) : Nat :=
  (allSectors.filter fun x => st.sectors[x].state == .erased && st.sectors[x].protection == .unlocked).length

/-- The id of the incident in a slot. -/
def Incidents.idOf (u : Incidents) (k : Fin 4) : Half := ((u.table[k]).map fun i => i.id).getD 0

/-- The reservation finds no room (R129). -/
def State.noRoom (s : State) (k : Fin 4) (c : Commit) (reason : FullReason) : State :=
  let s := s.endCommit
  if s.records.full = none then
    ({ s with records := { s.records with full := some reason } }).notify
      (.storeFull reason (s.inc.idOf k) c.size s.store.policy s.records.index.length
        s.store.erasedUnlocked)
  else s

/-- The sector a commit overwrites: only under OVERWRITE_OLDEST, as found at its grant (R113, R125). -/
def State.victim (s : State) (c : Commit) : Option (Fin 64) :=
  if c.policy = .overwriteOldest then s.store.toOverwrite else none

/-- Overwrite when a sector is named for it, and otherwise no room (R125). -/
def State.overwriteOr (s : State) (k : Fin 4) (c : Commit) (reason : FullReason) : State :=
  match s.victim c with
  | some x => s.whenServed c fun s => s.commitOverwrites c x
  | none => s.noRoom k c reason

/-- The next unit of a record's bytes, or its state unit (R132). -/
def State.startRecordUnit (s : State) (i : Incident) (c : Commit) (p : Programming) : State :=
  if p.done < c.size then
    let len := unitLength p.offset p.done c.size
    let bytes := ((s.capture.recordImage i p.serial c.size).drop p.done).take len
    (s.setCommit { c with phase := .programming { p with unit := .record len }, waiting := false }).startUnit
      p.sector (p.offset + p.done) bytes .commit (some p.serial)
  else
    (s.setCommit { c with phase := .programming { p with unit := .complete }, waiting := false }).startUnit
      p.sector (p.offset + stateOffset) [stateComplete] .commit (some p.serial)

/-- A unit boundary (R133): the cancellation mark when CANCEL_PENDING is set, and otherwise the next unit. -/
def State.unitBoundary (s : State) (k : Fin 4) (c : Commit) (p : Programming) : State :=
  match s.inc.table[k] with
  | none => s
  | some i =>
    if i.cancelPending then
      (s.setCommit { c with phase := .programming { p with unit := .cancel }, waiting := false }).startUnit
        p.sector (p.offset + stateOffset) [stateDiscarded] .commit (some p.serial)
    else s.startRecordUnit i c p

/-- The record has its place (R132, R90): COMMITTING under the next serial, and the first unit begins (R102). -/
def State.placeRecord (s : State) (k : Fin 4) (c : Commit) (x : Fin 64) (offset : Nat) : State :=
  match s.inc.table[k] with
  | none => s
  | some i =>
    let serial := s.records.nextSerial
    let i := { i with state := .committing, serial := some serial }
    let s := s.setIncident k (some i)
    let s := { s with inc := { s.inc with queue := s.inc.queue.filter (· != k) },
                      records := { s.records with nextSerial := serial + 1 } }
    let p : Programming := ⟨serial, x, offset, 0, 0, .record 0⟩
    s.whenServed { c with phase := .programming p } fun s => s.startRecordUnit i c p

/-- Steps 5 and 6 of the reservation: open a sector, or overwrite one (R125). -/
def State.findSector (s : State) (k : Fin 4) (c : Commit) : State :=
  match s.store.toOpen with
  | some x => s.whenServed c fun s => s.commitOpens c x
  | none => s.overwriteOr k c .sector

/-- The reservation, steps 1 to 6 of R125. -/
def State.reserve (s : State) (k : Fin 4) (c : Commit) : State :=
  if s.records.nextSerial = 0xFFFFFFFF#32 then s.noRoom k c .serials
  else if Config.indexCapacity ≤ s.records.index.length then s.overwriteOr k c .index
  else
    match s.store.openSector with
    | some x =>
      if c.size ≤ s.store.sectors[x].room then s.placeRecord k c x (s.store.sectors[x].fillOffset.getD 0)
      else (s.modSector x Sector.close).findSector k c
    | none => s.findSector k c

/-- The re-check at the event that ends an operation of the reservation (R125): the commit ends when its incident was
cancelled (R131). -/
def State.recheck (s : State) (c : Commit) : State :=
  match c.incident with
  | none => s.endCommit
  | some k => s.reserve k c

/-- A unit passed and another follows (R133): at once, or at the end of a read. -/
def State.continueRecord (s : State) (k : Fin 4) (c : Commit) (p : Programming) : State :=
  s.whenServed { c with phase := .programming p } fun s => s.unitBoundary k c p

/-- The commit that waited for a read goes on (R102, R133). -/
def State.resumeCommit (s : State) : State :=
  match s.records.commit with
  | some c =>
    if c.waiting then
      match c.phase, c.incident with
      | .programming p, some k => s.unitBoundary k c p
      | _, _ => s.recheck c
    else s
  | none => s

/-- The index entry of a committed record (R123). -/
def indexEntryOf (i : Incident) (p : Programming) (size : Nat) : IndexEntry :=
  { serial := p.serial, sector := p.sector, offset := p.offset, length := size, id := i.id, source := i.source.code,
    entry := u8 i.entry.val |>.headD 0, triggerLine := triggerLineByte i.trigger, triggerTime := i.triggerTime,
    frameCount := i.frames.length, preTrimmed := i.preTrimmed, retried := i.retried,
    closedFull := i.closeReason == some .full }

/-- The commit succeeds (R133, R91). -/
def State.retain (s : State) (k : Fin 4) (c : Commit) (p : Programming) : State :=
  match s.inc.table[k] with
  | none => s
  | some i =>
    let s := s.modSector p.sector fun x =>
      { x with fillOffset := x.fillOffset.map (· + c.size), live := x.live + 1 }
    let s := { s with records := { s.records with index := s.records.index ++ [indexEntryOf i p c.size] } }
    (s.endIncident k i).notify
      (.incidentRetained i.id p.serial p.sector p.offset c.size i.frames.length i.closeReason i.preTrimmed
        i.retried) |>.endCommit

/-- The cancellation mark passed (R135). -/
def State.cancelMarked (s : State) (k : Fin 4) (c : Commit) (p : Programming) : State :=
  let s := s.modSector p.sector fun x =>
    { x with fillOffset := x.fillOffset.map (· + c.size), dead := x.dead + c.size }
  (s.abandon k .cancelled).endCommit

/-- A retry: QUEUED at the head of the commit queue with RETRIED set (R92). -/
def State.retry (s : State) (k : Fin 4) (i : Incident) : State :=
  let s := s.setIncident k (some { i with state := .queued, retried := true })
  { s with inc := { s.inc with queue := k :: s.inc.queue } }

/-- The commit fails at a unit of its programming phase (R134). -/
def State.commitFails (s : State) (k : Fin 4) (op : ProgramOp) (p : Programming) : State :=
  match s.inc.table[k] with
  | none => s
  | some i =>
    let s := (s.programFault op).modSector p.sector Sector.close
    let s :=
      if i.cancelPending ∨ p.unit = .cancel then s.abandon k .cancelled
      else if i.retried then s.abandon k .storeFault
      else s.retry k i
    s.endCommit

/-! ### The arbiter (R107) -/

/-- The grant of a commit (R107, R125): it takes the head incident, its size and the policy it finds. -/
def State.grantCommit (s : State) : State :=
  match s.inc.queue with
  | [] => s
  | k :: _ =>
    match s.inc.table[k] with
    | none => s
    | some i =>
      let c : Commit := { incident := some k, size := i.recordSize, policy := s.store.policy,
                          phase := .reservation none, waiting := false }
      (({ s with store := { s.store with holder := some .commit } }).setCommit c).reserve k c

/-- The grant of a background erase (R107). -/
def State.grantReclaim (s : State) : State :=
  match s.store.toReclaim with
  | some x => ({ s with store := { s.store with holder := some .background } }).startErase x .reclaim
  | none => s

/-- The grant of the head item of the host work list (R109). -/
def State.grantItem (s : State) (i : WorkItem) (rest : List WorkItem) : State :=
  let s := { s with store := { s.store with holder := some .hostItem, work := rest } }
  match i with
  | .erase x => s.startErase x .host
  | .mark serial x offset => s.startUnit x (offset + stateOffset) [stateDiscarded] .mark (some serial)

/-- The array is idle (R101) and the store READY. -/
def State.arrayIdle (s : State) : Bool :=
  s.store.state == .ready && s.store.holder == none && s.store.read == none

/-- The arbiter (R107). A commit that ends at once for want of room leaves the array to background reclaim. -/
def State.arbitrate (s : State) : State :=
  if s.arrayIdle then
    match s.store.work with
    | i :: rest => s.grantItem i rest
    | [] =>
      let s := if s.records.full = none then s.grantCommit else s
      if s.store.holder = none then s.grantReclaim else s
  else s

/-- The end of an event that may free frames and leave work for the array. -/
def State.settleEvent (old s : State) : State := (State.conclude old s).arbitrate

/-! ### Program units end (R97, R98, R109, R127, R133 to R135) -/

/-- A passing unit is handed to the holder. -/
def State.unitPassed (s : State) (op : ProgramOp) : State :=
  match op.cause, s.records.commit with
  | .commit, some c =>
    match c.phase, c.incident with
    | .reservation (some (x, seq)), _ =>
      (s.modSector x (Sector.opened seq)).recheck { c with phase := .reservation none }
    | .programming p, some k =>
      match p.unit with
      | .record len => s.continueRecord k c { p with done := p.done + len, units := p.units + 1 }
      | .complete => s.retain k c p
      | .cancel => s.cancelMarked k c p
    | _, _ => s
  | _, _ => s.dropHolder

/-- A failing unit is handed to the holder. -/
def State.unitFailed (s : State) (op : ProgramOp) : State :=
  match op.cause, s.records.commit with
  | .commit, some c =>
    match c.phase, c.incident with
    | .reservation (some (x, _)), _ =>
      ((s.programFault op).modSector x Sector.spoilt).recheck { c with phase := .reservation none }
    | .programming p, some k => s.commitFails k op p
    | _, _ => s
  | _, _ => ((s.programFault op).modSector op.sector Sector.close).dropHolder

/-- The bytes a unit's cells hold before it. -/
def State.formerBytes (s : State) (op : ProgramOp) : List Byte :=
  (s.store.sectors[op.sector].mem).readRange op.offset op.bytes.length

/-- The unit's cells take their values and the operation in progress becomes none. -/
def State.leaveBytes (s : State) (op : ProgramOp) (bytes : List Byte) : State :=
  let s := s.modSector op.sector fun x => { x with mem := x.mem.writeBytes op.offset bytes }
  { s with store := { s.store with op := none } }

/-- PROGRAM_UNIT_END (R98): up to 3 ms after the unit began. The unit passes when its bytes are the intended
ones. With no unit in progress, or later, it cannot occur (log 1). -/
def execProgramUnitEnd (cells : List Byte) (s : State) : Host.Outcome State Fault Refusal :=
  match s.store.op with
  | some (.program op) =>
    if microsSince s.time.elapsed op.since ≤ Config.programLimit then
      let former := s.formerBytes op
      let bytes := drivenBytes former op.bytes cells
      let s1 := s.leaveBytes op bytes
      .next (State.settleEvent s
        (if bytes = intendedBytes former op.bytes then s1.unitPassed op else s1.unitFailed op))
    else .next s
  | _ => .next s

/-- PROGRAM_UNIT_TIMEOUT (R98): 3 ms after the unit began it ends as one that failed its verify. -/
def execProgramUnitTimeout (cells : List Byte) (s : State) : Host.Outcome State Fault Refusal :=
  match s.store.op with
  | some (.program op) =>
    let s := s.advanceTo (pointAfterUs op.since Config.programLimit)
    let bytes := drivenBytes (s.formerBytes op) [] cells
    .next (State.settleEvent s ((s.leaveBytes op bytes).unitFailed op))
  | _ => .next s

/-! ### Erases end (R99, R105) -/

/-- The outcome goes to the holder: a commit re-checks (R128), any other holder's work ends (R105). -/
def State.eraseOver (s : State) (e : EraseOp) : State :=
  match e.cause, s.records.commit with
  | .overwrite, some c => s.recheck c
  | _, _ => s.dropHolder

/-- An erase ends (R105, R130): sector, faults and notices, then the holder. -/
def State.endErase (s : State) (e : EraseOp) (passed : Bool) : State :=
  let s := { s with store := { s.store with op := none } }
  if passed then
    (((s.modSector e.sector Sector.erasedWell).clearFull).notify (.eraseDone e.sector true e.cause)).eraseOver e
  else
    let s := { (s.modSector e.sector (Sector.erasedBadly s.freeKey)) with freeKey := s.freeKey + 1 }
    ((s.eraseFault e).notify (.eraseDone e.sector false e.cause)).eraseOver e

/-- Active time of an erase that is not suspended (R99). -/
def EraseOp.activeBy (e : EraseOp) (now since : Stamp) : Nat := e.active + microsSince now since

/-- ERASE_END (R105): within 250 ms of active time; `blank` says whether every byte reads FFh. With no erase
active, or later, it cannot occur (log 1). -/
def execEraseEnd (blank : Bool) (s : State) : Host.Outcome State Fault Refusal :=
  match s.store.op with
  | some (.erase e) =>
    match e.since with
    | some t =>
      if e.activeBy s.time.elapsed t ≤ Config.eraseLimit then .next (s.endErase e blank).arbitrate
      else .next s
    | none => .next s
  | _ => .next s

/-- ERASE_TIMEOUT (R99): after 250 ms of active time the erase ends as one that failed its verify. -/
def execEraseTimeout (s : State) : Host.Outcome State Fault Refusal :=
  match s.store.op with
  | some (.erase e) =>
    match e.since with
    | some t =>
      let s := s.advanceTo (pointAfterUs t (Config.eraseLimit - e.active))
      .next (s.endErase e false).arbitrate
    | none => .next s
  | _ => .next s

/-! ### The requests to the store -/

/-- The end of an accepted store request: the arbiter grants if the array is idle (R107). -/
def State.accepted (s : State) (a : Answer) : State × Answer := (s.arbitrate, a)

/-- SET_STORE_POLICY, its body (R113). -/
def setStorePolicyBody (policy : Byte) (s : State) : State × Answer :=
  match storePolicyOf policy with
  | none => (s, .bare .badArgument)
  | some p =>
    if s.store.state = .scanning then (s, .bare .notReady)
    else ({ s with store := { s.store with policy := p } }).clearFull.accepted (.ok [])

/-- SET_STORE_POLICY (R113). -/
def execSetStorePolicy (tag policy : Byte) (s : State) : Host.Outcome State Fault Refusal :=
  .next (s.serve (.setStorePolicy tag policy) (setStorePolicyBody policy))

/-- A protection level takes effect (R112): locking closes an OPEN sector, unlocking may make a reclaim
candidate. -/
def Sector.protect (level : Protection) (x : Sector) : Sector :=
  if level = x.protection then x
  else if x.protection = .unlocked then { x with protection := level }.close
  else { x with protection := level }.settle

/-- The sector an array operation concerns. -/
def ArrayOp.sector : ArrayOp → Fin 64
  | .erase e => e.sector
  | .program p => p.sector

/-- The host work item that holds the array names the sector (R101, log 34). -/
def Store.itemHolds (st : Store) (x : Fin 64) : Bool :=
  st.holder == some .hostItem && st.op.any fun o => o.sector == x

/-- The sector is held by waiting or running work (R112). -/
def Store.inWork (st : Store) (x : Fin 64) : Bool :=
  st.sectors[x].state == .erasing || st.sectors[x].pending || st.work.any (fun i => i.sector == x) || st.itemHolds x

/-- The protection and the state of a sector, as SET_PROTECTION replies them (R112, log 19). -/
def State.protectionReply (s : State) (x : Fin 64) : List Byte :=
  [s.store.sectors[x].protection.code, s.store.sectors[x].state.code]

/-- SET_PROTECTION of a sector to a level, once both are in range (R112). -/
def State.protect (s : State) (x : Fin 64) (level : Protection) : State × Answer :=
  let was := s.store.sectors[x].protection
  if s.store.state = .scanning then (s, .bare .notReady)
  else if was = .lockedDown ∧ level ≠ .lockedDown then (s, .bare .prot)
  else if s.store.inWork x ∨ s.commitSector x then (s, .bare .busy)
  else
    let s1 := s.modSector x (Sector.protect level)
    let s2 := if was = .locked ∧ level = .unlocked then s1.clearFull else s1
    let s3 := s2.arbitrate
    (s3, .ok (s3.protectionReply x))

/-- SET_PROTECTION, its body (R112). -/
def setProtectionBody (sector level : Byte) (s : State) : State × Answer :=
  match sectorOf sector, protectionOf level with
  | some x, some l => s.protect x l
  | _, _ => (s, .bare .badArgument)

/-- SET_PROTECTION (R112). -/
def execSetProtection (tag sector level : Byte) (s : State) : Host.Outcome State Fault Refusal :=
  .next (s.serve (.setProtection tag sector level) (setProtectionBody sector level))

/-- The effects of an erase item that is added, but for the grant (R110). -/
def State.addErase (s : State) (x : Fin 64) : State :=
  let gone := s.records.index.filter fun e => e.sector == x
  let s := s.modSector x fun v =>
    { v.close with pending := true, live := 0, dead := v.close.dead + lengthsOf gone }
  { s with
    store := { s.store with work := s.store.work ++ [.erase x] }
    records := { s.records with index := s.records.index.filter (fun e => e.sector != x), full := none } }

/-- ERASE_SECTOR of a sector in range (R110). -/
def State.eraseSector (s : State) (x : Fin 64) : State × Answer :=
  let v := s.store.sectors[x]
  if s.store.state = .scanning then (s, .bare .notReady)
  else if v.protection ≠ .unlocked then (s, .bare .prot)
  else if v.state = .erasing ∨ v.pending = true then (s, .bare .accepted)
  else if s.commitSector x then (s, .bare .busy)
  else if Config.workCapacity ≤ s.store.work.length then (s, .bare .busy)
  else (s.addErase x).accepted (.bare .accepted)

/-- ERASE_SECTOR, its body (R110). -/
def eraseSectorBody (sector : Byte) (s : State) : State × Answer :=
  match sectorOf sector with
  | some x => s.eraseSector x
  | none => (s, .bare .badArgument)

/-- ERASE_SECTOR (R110). -/
def execEraseSector (tag sector : Byte) (s : State) : Host.Outcome State Fault Refusal :=
  .next (s.serve (.eraseSector tag sector) (eraseSectorBody sector))

/-- The index entry of a serial (R123). -/
def Records.entryOf (r : Records) (serial : Word) : Option IndexEntry := r.index.find? fun e => e.serial == serial

/-- The effects of an accepted DISCARD_RECORD, but for the grant (R137). -/
def State.discard (s : State) (e : IndexEntry) : State :=
  let s := s.modSector e.sector fun v => { v with live := v.live - 1, dead := v.dead + e.length }.settle
  { s with
    store := { s.store with work := s.store.work ++ [.mark e.serial e.sector e.offset] }
    records := { s.records with index := s.records.index.filter (fun d => d.serial != e.serial), full := none } }

/-- DISCARD_RECORD, its body (R137). -/
def discardRecordBody (serial : Word) (s : State) : State × Answer :=
  if s.store.state = .scanning then (s, .bare .notReady)
  else
    match s.records.entryOf serial with
    | none => (s, .bare .notFound)
    | some e =>
      if s.store.sectors[e.sector].protection ≠ .unlocked then (s, .bare .prot)
      else if Config.workCapacity ≤ s.store.work.length then (s, .bare .busy)
      else (s.discard e).accepted (.bare .accepted)

/-- DISCARD_RECORD (R137). -/
def execDiscardRecord (tag : Byte) (serial : Word) (s : State) : Host.Outcome State Fault Refusal :=
  .next (s.serve (.discardRecord tag serial) (discardRecordBody serial))

end Sys2Proof.Machine
end

