-- ==== Sys2Proof/Machine/Match.lean ====
section
/-! DEFINITION. The match unit (spec/03) and the incident unit's own events and requests (spec/04). -/

namespace Sys2Proof.Machine

/-! ### Conditions (R49 to R53) -/

/-- Status condition (R49): 0 ANY, 1 GOOD, 2 BAD. -/
def statusHolds (cond : Byte) (bad : Bool) : Bool :=
  match cond.toNat with
  | 0 => true
  | 1 => !bad
  | _ => bad

/-- Byte `i` of a 16-byte field (R189). -/
def fieldByte (v : BitVec 128) (i : Nat) : Byte := v.extractLsb' (8 * i) 8

/-- A position of a DIRECT comparison agrees (R51). -/
def directAgrees (e : EntryDef) (bytes : List Byte) (i : Nat) : Bool :=
  (byteAt bytes (e.offset.toNat + i) &&& fieldByte e.byteMask i) == (fieldByte e.pattern i &&& fieldByte e.byteMask i)

/-- The comparison of a DIRECT entry (R51). -/
def directHolds (e : EntryDef) (bytes : List Byte) : Bool :=
  decide (e.offset.toNat + e.width.toNat ≤ bytes.length) &&
    (let all := (List.range e.width.toNat).all (directAgrees e bytes)
     if e.sense = 0 then all else !all)

/-- The bytes a DIGEST entry selects (R52). -/
def digestSelected (e : EntryDef) (bytes : List Byte) : List Byte :=
  ((List.range e.span.toNat).filter fun i => e.spanMask.getLsbD i).map fun i => byteAt bytes (e.offset.toNat + i)

/-- The comparison of a DIGEST entry (R52). -/
def digestHolds (e : EntryDef) (bytes : List Byte) : Bool :=
  decide (e.offset.toNat + e.span.toNat ≤ bytes.length) && crc16 (digestSelected e bytes) == e.digest

/-- The after-condition against a reference time (R53); it holds when there is none. -/
def Matcher.afterHolds (m : Matcher) (e : EntryDef) (ref : Stamp) : Bool :=
  e.afterOn == 0 ||
    match entryOf e.afterEntry with
    | none => false
    | some r =>
      match m.entries[r].lastMatch with
      | none => false
      | some t => decide (t.toNat ≤ ref.toNat) && decide (ref.toNat - t.toNat ≤ e.afterWindow.toNat * 1000)

/-- A DIRECT or DIGEST entry matches a frame with these stored bytes (R49 to R53). -/
def Matcher.matchesFrame (m : Matcher) (e : EntryDef) (f : Frame) (bytes : List Byte) (ref : Stamp) : Bool :=
  e.testsFrames && e.enabled == 1 && inSet e.lineSet f.line.val && statusHolds e.status (isBad f.check f.flags)
    && decide (e.lenMin.toNat ≤ f.length ∧ f.length ≤ e.lenMax.toNat)
    && (if e.kind = kindDirect then directHolds e bytes else digestHolds e bytes) && m.afterHolds e ref

/-- An EXTERNAL entry matches an edge (R63). -/
def Matcher.matchesEdge (m : Matcher) (e : EntryDef) (ref : Stamp) : Bool :=
  e.kind == kindExternal && e.enabled == 1 && m.afterHolds e ref

/-! ### Evaluation (R54, R56, R63) -/

/-- An entry has matched (R54). -/
def Entry.matched (t : Stamp) (e : Entry) : Entry := { e with lastMatch := some t, count := e.count + 1 }

/-- The entries evaluated in index order by a test, each seeing the matches before it: the table and the matching
entries (R54, R56). -/
def Matcher.evaluate (m : Matcher) (test : Matcher → EntryDef → Bool) (t : Stamp) : Matcher × Half :=
  allEntries.foldl (fun r e =>
    let x := r.1.entries[e]
    if test r.1 x.body then (r.1.setEntry e (x.matched t), r.2 ||| (1#16 <<< e.val)) else r) (m, 0)

/-- The matching entries that fire: action TRIGGER and not in holdoff, in index order (R57). -/
def Matcher.firing (m : Matcher) (matched : Half) : List (Fin 16) :=
  allEntries.filter fun e =>
    inSet matched e.val && m.entries[e].body.action == actionTrigger && m.entries[e].holdoffEnd.isNone

/-- The holdoff of an entry whose fire opened an incident (R61). -/
def Entry.startHoldoff (now : Stamp) (e : Entry) : Entry :=
  if e.body.holdoff = 0 then e else { e with holdoffEnd := some (pointAfterMs now e.body.holdoff.toNat) }

/-- A refused open request (R58). -/
def State.missTrigger (s : State) (r : OpenRequest) : State :=
  let n := s.matcher.missed + 1
  ({ s with matcher := { s.matcher with missed := n } }).notify (.triggerMissed r.entry r.source r.trigger r.time n)

/-- One open request (R57, R58, R61): the incident, and whether it was opened. -/
def State.putRequest (s : State) (r : OpenRequest) : State × Bool :=
  match s.openIncident r with
  | some t =>
    ({ t with matcher := t.matcher.setEntry r.entry (t.matcher.entries[r.entry].startHoldoff t.time.elapsed) }, true)
  | none => (s.missTrigger r, false)

/-- The open requests of one event, one at a time in index order; whether any was opened (R57). -/
def State.fire (s : State) (request : Fin 16 → OpenRequest) (es : List (Fin 16)) : State × Bool :=
  es.foldl (fun r e => let q := r.1.putRequest (request e); (q.1, r.2 || q.2)) (s, false)

/-! ### CLASSIFICATION (R55 to R60) -/

/-- A STOPPING line with no frame in its charge enters STOPPED (R17). -/
def Line.finishStop (l : Line) : Line :=
  if l.state = .stopping ∧ l.current = none ∧ l.awaiting = [] then l.enter .stopped else l

/-- Whether a classified frame is dropped (R59). -/
def State.drops (s : State) (i : Fin 8) (f : Frame) (matched : Half) (opened : Bool) : Bool :=
  let dropEntry := allEntries.any fun e => inSet matched e.val && s.matcher.entries[e].body.action == actionDrop
  (dropEntry || (isBad f.check f.flags && !s.lines[i].cfg.keepBad)) && !opened

/-- The open request of an entry that fires on a frame (R57). -/
def frameRequest (i : Fin 8) (id : Nat) (f : Frame) (e : Fin 16) : OpenRequest :=
  { source := .entry, entry := e, trigger := some (i, f.seq), frame := some id, time := f.start }

/-- The classification of the frame in a slot, which has left the frames awaiting it (R56). -/
def State.classifyFrame (s : State) (i : Fin 8) (id : Nat) (f : Frame) : State :=
  let bytes := s.capture.frameBytes f
  let ref := s.time.tod
  let r := s.matcher.evaluate (fun m e => m.matchesFrame e f bytes ref) f.start
  let s := { s with matcher := r.1, capture := s.capture.modFrame id fun f => { f with matchSet := r.2 } }
  let q := s.fire (frameRequest i id f) (r.1.firing r.2)
  if q.1.drops i f r.2 q.2 then q.1.dropClaim i id else (q.1.arrive id i).keepClaim i id

/-- The classification of the oldest frame that awaits it on a line, as one event (R55, R56). -/
def State.classify (s : State) (i : Fin 8) : State :=
  match s.lines[i].awaiting with
  | [] => s
  | id :: rest =>
    match s.capture.frame? id with
    | none => s
    | some f =>
      let s1 := s.modLine i fun l => { l with awaiting := rest }
      State.settleEvent s ((s1.classifyFrame i id f).modLine i Line.finishStop)

/-- CLASSIFICATION (R56); with no frame awaiting it there is none (log 1). -/
def execClassification (line : Fin 8) (s : State) : Host.Outcome State Fault Refusal := .next (s.classify line)

/-! ### TRIG_IN (R62, R63) and holdoff (R61) -/

/-- An edge comes at least 10 µs after the last accepted one (R62), by the elapsed count, which turns every 2^48 µs
(log 15). -/
def Matcher.spaced (m : Matcher) (now : Stamp) : Bool :=
  match m.lastAccepted with
  | none => true
  | some t => decide (Config.edgeSpacing ≤ microsSince now t)

/-- TRIG_IN_RISING_EDGE (R62): an edge too close is ignored; otherwise its 1 µs high time runs. A rising edge
inside the high time of another says that the pin fell, and that other is ignored (log 15). -/
def execTrigInRisingEdge (s : State) : Host.Outcome State Fault Refusal :=
  .next { s with matcher := { s.matcher with
    risingEdge := if s.matcher.spaced s.time.elapsed then some ⟨s.time.tod, s.time.elapsed⟩ else none } }

/-- The open request of an EXTERNAL entry that fires on an edge (R63). -/
def edgeRequest (t : Stamp) (e : Fin 16) : OpenRequest :=
  { source := .external, entry := e, trigger := none, frame := none, time := t }

/-- TRIG_IN_EDGE_ACCEPTED (R62, R63): the end of the 1 µs high time. With no such time running there is none
(log 1). -/
def execTrigInEdgeAccepted (s : State) : Host.Outcome State Fault Refusal :=
  match s.matcher.risingEdge with
  | none => .next s
  | some e =>
    let s := s.advanceTo (pointAfterUs e.elapsed 1)
    let m := { s.matcher with lastAccepted := some e.elapsed, risingEdge := none }
    let r := m.evaluate (fun m d => m.matchesEdge d e.time) e.time
    let q := ({ s with matcher := r.1 }).fire (edgeRequest e.time) (r.1.firing r.2)
    .next (State.settleEvent s q.1)

/-- HOLDOFF_EXPIRY (R61); without a holdoff there is none (log 1). -/
def execHoldoffExpiry (entry : Fin 16) (s : State) : Host.Outcome State Fault Refusal :=
  match s.matcher.entries[entry].holdoffEnd with
  | none => .next s
  | some t =>
    let s := s.advanceTo t
    .next { s with matcher := s.matcher.setEntry entry { s.matcher.entries[entry] with holdoffEnd := none } }

/-- POST_TIMER_EXPIRY (R80); without a post timer there is none (log 1). -/
def execPostTimerExpiry (slot : Fin 4) (s : State) : Host.Outcome State Fault Refusal :=
  match s.inc.table[slot].bind (·.postTimer) with
  | none => .next s
  | some t =>
    let s := s.advanceTo t
    .next (State.settleEvent s (s.closeIncident slot .time))

/-! ### WRITE_ENTRY, READ_ENTRY, CLEAR_ENTRY (R65 to R68) -/

/-- An entry takes a definition and fresh runtime fields. -/
def State.writeEntry (s : State) (e : Fin 16) (body : EntryDef) : State :=
  { s with matcher := s.matcher.setEntry e (.fresh body) }

/-- The body of WRITE_ENTRY (R65). -/
def writeEntryBody (entry : Byte) (body : EntryDef) (s : State) : State × Answer :=
  match entryOf entry with
  | none => (s, .bare .badArgument)
  | some e => if body.ok e then (s.writeEntry e body, .ok []) else (s, .bare .badArgument)

/-- WRITE_ENTRY (R65). -/
def execWriteEntry (tag entry : Byte) (body : EntryDef) (s : State) : Host.Outcome State Fault Refusal :=
  .next (s.serve (.writeEntry tag entry body) (writeEntryBody entry body))

/-- A time with its presence byte; zeros when absent (R189). -/
def optTime (t : Option Stamp) : List Byte :=
  match t with
  | some t => 1 :: time48 t
  | none => 0 :: time48 0

/-- The definition as READ_ENTRY reports it: the value bytes of an absent after-condition are zeros (R67, R189). -/
def EntryDef.reported (e : EntryDef) : EntryDef :=
  if e.afterOn = 0 then { e with afterEntry := 0, afterWindow := 0 } else e

/-- The reply data of READ_ENTRY (R67). -/
def Entry.bytes (now : Stamp) (e : Entry) : List Byte :=
  (EntryDef.reported e.body).bytes ++ optTime e.lastMatch
    ++ (match e.holdoffEnd with
        | some t => 1 :: u16 (msLeft now t)
        | none => 0 :: u16 0)
    ++ encLE 4 e.count

/-- The body of READ_ENTRY (R67). -/
def readEntryBody (entry : Byte) (s : State) : State × Answer :=
  match entryOf entry with
  | none => (s, .bare .badArgument)
  | some e => (s, .ok (s.matcher.entries[e].bytes s.time.elapsed))

/-- READ_ENTRY (R67). -/
def execReadEntry (tag entry : Byte) (s : State) : Host.Outcome State Fault Refusal :=
  .next (s.serve (.readEntry tag entry) (readEntryBody entry))

/-- The body of CLEAR_ENTRY (R68). -/
def clearEntryBody (entry : Byte) (s : State) : State × Answer :=
  match entryOf entry with
  | none => (s, .bare .badArgument)
  | some e => (s.writeEntry e unusedDef, .ok [])

/-- CLEAR_ENTRY (R68). -/
def execClearEntry (tag entry : Byte) (s : State) : Host.Outcome State Fault Refusal :=
  .next (s.serve (.clearEntry tag entry) (clearEntryBody entry))

/-! ### FORCE_TRIGGER, LIST_INCIDENTS, CLOSE_INCIDENT, CANCEL_INCIDENT -/

/-- The open request of FORCE_TRIGGER (R79). -/
def forcedRequest (t : Stamp) (e : Fin 16) : OpenRequest :=
  { source := .forced, entry := e, trigger := none, frame := none, time := t }

/-- The body of FORCE_TRIGGER (R79). -/
def forceTriggerBody (entry : Byte) (s : State) : State × Answer :=
  match entryOf entry with
  | none => (s, .bare .badArgument)
  | some e =>
    if s.matcher.entries[e].body.fires then
      match s.openIncident (forcedRequest s.time.tod e) with
      | none => (s, .bare .noRoom)
      | some t => (State.settleEvent s t, .ok (encLE 2 (freshId s.inc.ids 4 s.inc.idCounter)))
    else (s, .bare .badArgument)

/-- FORCE_TRIGGER (R79). -/
def execForceTrigger (tag entry : Byte) (s : State) : Host.Outcome State Fault Refusal :=
  .next (s.serve (.forceTrigger tag entry) (forceTriggerBody entry))

/-- One description of LIST_INCIDENTS (R94). -/
def Incident.bytes (now : Stamp) (i : Incident) : List Byte :=
  encLE 2 i.id ++ [i.state.code, i.source.code] ++ u8 i.entry.val ++ [triggerLineByte i.trigger]
    ++ encLE 2 (triggerSeq i.trigger) ++ time48 i.triggerTime ++ [i.captureSet] ++ u8 i.preCount ++ u8 i.postCount
    ++ u16 i.postTime ++ u16 i.frames.length ++ u16 i.budget ++ u16 i.postFrames
    ++ u16 ((i.postTimer.map (msLeft now)).getD 0xFFFF)
    ++ [closeCode i.closeReason, incidentFlags i.preTrimmed i.retried i.cancelPending]

/-- The slots in the order of LIST_INCIDENTS: COMMITTING, the commit queue, COLLECTING in order of opening. -/
def Incidents.listing (u : Incidents) : List (Fin 4) :=
  let inState (v : IncidentState) (k : Fin 4) : Bool := (u.table[k]).any fun i => i.state == v
  allSlots.filter (inState .committing) ++ u.queue ++ u.opened.filter (inState .collecting)

/-- The body of LIST_INCIDENTS (R94). -/
def listIncidentsBody (s : State) : State × Answer :=
  let is := s.inc.listing.filterMap fun k => s.inc.table[k]
  (s, .ok (u8 is.length ++ is.flatMap (Incident.bytes s.time.elapsed)))

/-- LIST_INCIDENTS (R94). -/
def execListIncidents (tag : Byte) (s : State) : Host.Outcome State Fault Refusal :=
  .next (s.serve (.listIncidents tag) listIncidentsBody)

/-- The body of CLOSE_INCIDENT (R87). -/
def closeIncidentBody (id : Half) (s : State) : State × Answer :=
  match s.inc.slotOf id with
  | none => (s, .bare .notFound)
  | some k =>
    if (s.inc.table[k]).any fun i => i.state == .collecting then
      (State.settleEvent s (s.closeIncident k .host), .ok [])
    else (s, .bare .wrongState)

/-- CLOSE_INCIDENT (R87). -/
def execCloseIncident (tag : Byte) (id : Half) (s : State) : Host.Outcome State Fault Refusal :=
  .next (s.serve (.closeIncident tag id) (closeIncidentBody id))

/-- A commit in its reservation phase loses the incident in a slot (R131). -/
def Records.forget (r : Records) (k : Fin 4) : Records :=
  { r with commit := r.commit.map fun c => if c.incident = some k then { c with incident := none } else c }

/-- The body of CANCEL_INCIDENT (R88). -/
def cancelIncidentBody (id : Half) (s : State) : State × Answer :=
  match s.inc.slotOf id with
  | none => (s, .bare .notFound)
  | some k =>
    match s.inc.table[k] with
    | none => (s, .bare .notFound)
    | some i =>
      if i.state = .committing then (s.setIncident k (some { i with cancelPending := true }), .bare .accepted)
      else
        let s1 := { s.abandon k .cancelled with records := s.records.forget k }
        (State.settleEvent s s1, .ok [])

/-- CANCEL_INCIDENT (R88). -/
def execCancelIncident (tag : Byte) (id : Half) (s : State) : Host.Outcome State Fault Refusal :=
  .next (s.serve (.cancelIncident tag id) (cancelIncidentBody id))

end Sys2Proof.Machine
end

