-- ==== Sys2Proof/Machine/Lines.lean ====
section
/-! DEFINITION. The line receivers (spec/01): characters, framing modes, frame completion, the idle timer, and the
requests to a line. -/

namespace Sys2Proof.Machine

/-! ### Sampling (R1 to R4) -/

/-- A stored frame is in reception. -/
def Line.storing (l : Line) : Bool := l.current.any fun f => f.taking == .stored

/-- The line samples its pin: never in STOPPED, in STOPPING while a stored frame is in reception (R4, R17). -/
def Line.samples (l : Line) : Bool :=
  match l.state with
  | .stopped => false
  | .stopping => l.storing
  | .active | .suspended | .shed => true

/-- The receiver stops sampling in HUNT; no frame is in reception (R17). -/
def Line.quiet (l : Line) : Line :=
  { l with reception := .hunt, current := none, inCharacter := false, awaitHigh := false, idle := none,
           escape := false, discardLeft := none }

/-- The receiver passes to a reception state after a frame or a discarding; a STOPPING line stops sampling (R17). -/
def Line.pass (r : Reception) (left : Option Nat) (l : Line) : Line :=
  if l.state = .stopping then l.quiet
  else { l with reception := r, current := none, escape := false, discardLeft := left }

/-- To HUNT. -/
def Line.toHunt (l : Line) : Line := l.pass .hunt none

/-- To DISCARDING, with the characters of a COUNTED frame still to pass when they are known (R10, R11); none
left to pass is HUNT (log 14). -/
def Line.toDiscard (left : Option Nat) (l : Line) : Line :=
  if left = some 0 then l.toHunt else l.pass .discarding left

/-- What a completed character does to the receiver whatever its reception state (R1 to R3). -/
def Line.afterCharacter (now : Stamp) (errored stopHigh : Bool) (l : Line) : Line :=
  { l with
    inCharacter := false
    awaitHigh := !stopHigh
    idle := if stopHigh then some ⟨now, if l.cfg.twoStops then 3 else 1⟩ else none
    counters := if errored then { l.counters with charErrors := l.counters.charErrors + 1 } else l.counters }

/-! ### Frames (R5, R6, R11 to R14) -/

/-- How a frame that begins is taken (R5); none begins in STOPPED or STOPPING. -/
def Line.takes (l : Line) : Option Taking :=
  match l.state with
  | .active => some .stored
  | .suspended => some .followedLost
  | .shed => some .followedShed
  | .stopped | .stopping => none

/-- A frame begins (R5, R13). -/
def Line.begin (t : Timebase) (l : Line) : Line :=
  match l.takes with
  | some k =>
    { l with
      reception := .receiving, escape := false, discardLeft := none
      current := some { taking := k, slot := none, count := 0, charErr := false, startTime := t.tod,
                        firstAt := t.elapsed, lastAt := t.elapsed, storedAt := t.elapsed, total := none } }
  | none => l

/-- Duration from the first to the last character of a frame, in µs, in a 32-bit field (R13, log 32). -/
def durationOf (first last : Stamp) : Word := (last - first).setWidth 32

/-- What the capture memory slot of a completed frame holds (R12, R14). -/
def Frame.completed (l : Line) (cur : CurrentFrame) (last : Stamp) (cut broken : Bool) (bytes : List Byte)
    (f : Frame) : Frame :=
  let r := checkFrame l.cfg.check bytes
  { f with seq := l.nextSeq, start := cur.startTime, duration := durationOf cur.firstAt last, check := r.1,
           flags := ⟨cur.charErr, cut, broken, r.2⟩ }

/-- The line's side of a completed stored frame (R11, R12, R14). -/
def Line.handOn (id : Nat) (bad cut : Bool) (l : Line) : Line :=
  { l with
    nextSeq := l.nextSeq + 1, awaiting := l.awaiting ++ [id]
    counters := { l.counters with bad := if bad then l.counters.bad + 1 else l.counters.bad,
                                  cut := if cut then l.counters.cut + 1 else l.counters.cut } }

/-- The count of a followed frame at its end (R5); one that would have held no byte is not counted. -/
def Line.countFollowed (cur : CurrentFrame) (l : Line) : Line :=
  if cur.count = 0 then l
  else match cur.taking with
    | .stored => l
    | .followedLost => { l with counters := { l.counters with lost := l.counters.lost + 1 } }
    | .followedShed => { l with counters := { l.counters with shed := l.counters.shed + 1 } }

/-- The frame in reception of a line ends (R5, R9, R12 to R14): a stored frame with bytes is completed and handed
on, a followed one counted, a stored MARKED frame without a byte is no frame. The reception state is the
caller's to set. -/
def State.endFrame (s : State) (i : Fin 8) (cur : CurrentFrame) (last : Stamp) (cut broken : Bool) : State :=
  match cur.taking, cur.slot with
  | .stored, some id =>
    match s.capture.frame? id with
    | none => s
    | some f =>
      let g := f.completed s.lines[i] cur last cut broken (s.capture.frameBytes f)
      ({ s with capture := s.capture.putFrame id g }).modLine i (Line.handOn id (isBad g.check g.flags) cut)
  | .stored, none => s
  | _, _ => s.modLine i (Line.countFollowed cur)

/-- The frame in reception is abandoned for lack of a page (R6, R41), at its first stored byte too; a MARKED frame is
counted in lost there, though it holds no stored byte yet (R9, log 40). -/
def State.abandonFrame (s : State) (i : Fin 8) (cur : CurrentFrame) : State :=
  let c := match cur.slot with
    | some id => s.capture.freeFrame id
    | none => s.capture
  let left := cur.total.map fun t => t - (cur.count + 1)
  ({ s with capture := c }).modLine i fun l =>
    ({ l with counters := { l.counters with lost := l.counters.lost + 1 }, attention := true }).toDiscard left

/-- A stored byte claims what it needs of capture memory (R26, R27, R40): the slot, or none for want of a page. -/
def State.claimByte (s : State) (i : Fin 8) (cur : CurrentFrame) (b : Byte) : Option (Nat × Capture) :=
  match cur.slot with
  | none => s.capture.storeFirst s.lines i b
  | some id => (s.capture.storeNext s.lines id b).map fun c => (id, c)

/-- The frame in reception after one more byte. -/
def CurrentFrame.grown (cur : CurrentFrame) (now : Stamp) (slot : Option Nat) (errored : Bool) : CurrentFrame :=
  { cur with slot := slot, count := cur.count + 1, charErr := cur.charErr || errored, lastAt := now, storedAt := now }

/-- Set the frame in reception of a line. -/
def State.setCurrent (s : State) (i : Fin 8) (cur : CurrentFrame) : State :=
  s.modLine i fun l => { l with current := some cur }

/-- A character whose byte belongs to the frame in reception (R5, R6, R11): stored, counted when the frame is
followed, the cut of a frame that is full, or an abandonment. The flag says whether the frame goes on. -/
def State.frameByte (s : State) (i : Fin 8) (cur : CurrentFrame) (b : Byte) (errored : Bool) : State × Bool :=
  let now := s.time.elapsed
  if cur.taking ≠ .stored then (s.setCurrent i (cur.grown now none errored), true)
  else if s.lines[i].cfg.maxLength ≤ cur.count then
    ((s.endFrame i cur cur.storedAt true false).modLine i (Line.toDiscard none), false)
  else
    match s.claimByte i cur b with
    | none => (s.abandonFrame i cur, false)
    | some (id, c) => (({ s with capture := c }).setCurrent i (cur.grown now (some id) errored), true)

/-! ### The framing modes (R7 to R11) -/

/-- Characters to pass in DISCARDING, one less (R10). -/
def Line.passOne (l : Line) : Line :=
  match l.discardLeft with
  | some (n + 2) => { l with discardLeft := some (n + 1) }
  | some _ => l.toHunt
  | none => l

/-- A character in GAP mode (R7). -/
def State.gapCharacter (s : State) (i : Fin 8) (b : Byte) (errored : Bool) : State :=
  let s := if s.lines[i].reception = .hunt then s.modLine i (Line.begin s.time) else s
  match s.lines[i].reception, s.lines[i].current with
  | .receiving, some cur => (s.frameByte i cur b errored).1
  | _, _ => s

/-- The end of a MARKED frame, into HUNT (R8). -/
def State.endToHunt (s : State) (i : Fin 8) (cur : CurrentFrame) (last : Stamp) (broken : Bool) : State :=
  (s.endFrame i cur last false broken).modLine i Line.toHunt

/-- A character inside a MARKED frame (R8). -/
def State.markedInside (s : State) (i : Fin 8) (cur : CurrentFrame) (b : Byte) (errored : Bool) : State :=
  let l := s.lines[i]
  if l.escape then
    ((s.modLine i fun l => { l with escape := false }).frameByte i cur (b ^^^ 0x20#8) errored).1
  else if errored then (s.frameByte i cur b errored).1
  else if b = l.cfg.endByte then s.endToHunt i cur s.time.elapsed false
  else if b = l.cfg.startByte then
    (s.endToHunt i cur cur.lastAt true).modLine i (Line.begin s.time)
  else if b = l.cfg.escapeByte then
    s.modLine i fun l => { l with escape := true, current := some { cur with lastAt := s.time.elapsed } }
  else (s.frameByte i cur b errored).1

/-- A character of a MARKED line in DISCARDING (R9). -/
def Line.markedDiscard (t : Timebase) (b : Byte) (errored : Bool) (l : Line) : Line :=
  if l.escape then { l with escape := false }
  else if errored then l
  else if b = l.cfg.startByte then l.begin t
  else if b = l.cfg.endByte then l.toHunt
  else if b = l.cfg.escapeByte then { l with escape := true }
  else l

/-- A character in MARKED mode (R8, R9). -/
def State.markedCharacter (s : State) (i : Fin 8) (b : Byte) (errored : Bool) : State :=
  match s.lines[i].reception, s.lines[i].current with
  | .receiving, some cur => s.markedInside i cur b errored
  | .discarding, _ => s.modLine i (Line.markedDiscard s.time b errored)
  | .hunt, _ =>
    if !errored && b == s.lines[i].cfg.startByte then s.modLine i (Line.begin s.time) else s
  | .receiving, none => s

/-- The total length of a COUNTED frame, known from the byte at the length offset (R10). -/
def Line.totalWith (l : Line) (cur : CurrentFrame) (b : Byte) : CurrentFrame :=
  if cur.count = l.cfg.lenOffset.toNat then { cur with total := some (b.toNat + l.cfg.addend.toNat) } else cur

/-- What the count of a COUNTED frame says after a byte (R10, R11). -/
def State.countedEnd (s : State) (i : Fin 8) (cur : CurrentFrame) : State :=
  let l := s.lines[i]
  match cur.total with
  | none => s
  | some t =>
    if t ≤ l.cfg.lenOffset.toNat then s.endToHunt i cur s.time.elapsed true
    else if t = cur.count then s.endToHunt i cur s.time.elapsed false
    else if cur.taking = .stored ∧ cur.count = l.cfg.maxLength then
      (s.endFrame i cur s.time.elapsed true false).modLine i (Line.toDiscard (some (t - cur.count)))
    else s

/-- A character of a COUNTED frame (R10). -/
def State.countedByte (s : State) (i : Fin 8) (cur : CurrentFrame) (b : Byte) (errored : Bool) : State :=
  let r := s.frameByte i (s.lines[i].totalWith cur b) b errored
  match r.2, r.1.lines[i].current with
  | true, some cur => r.1.countedEnd i cur
  | _, _ => r.1

/-- A character in COUNTED mode (R10). -/
def State.countedCharacter (s : State) (i : Fin 8) (b : Byte) (errored : Bool) : State :=
  if s.lines[i].reception = .discarding then s.modLine i Line.passOne
  else
    let s := if s.lines[i].reception = .hunt then s.modLine i (Line.begin s.time) else s
    match s.lines[i].reception, s.lines[i].current with
    | .receiving, some cur => s.countedByte i cur b errored
    | _, _ => s

/-- A completed character, by the mode. -/
def State.character (s : State) (i : Fin 8) (b : Byte) (errored : Bool) : State :=
  match s.lines[i].cfg.mode with
  | .gap => s.gapCharacter i b errored
  | .marked => s.markedCharacter i b errored
  | .counted => s.countedCharacter i b errored

/-! ### The events of a line -/

/-- The end of a line's event: STOPPING to STOPPED (R17), pressure, notices. -/
def State.endLineEvent (old s : State) (i : Fin 8) : State := State.conclude old (s.modLine i Line.finishStop)

/-- A line holds at most two frames awaiting classification (R55): where an event would leave three, the oldest
is classified first (log 11). -/
def State.paced (s : State) (i : Fin 8) (event : State → State) : State :=
  if ((event s).lines[i]).awaiting.length ≤ 2 then event s else event (s.classify i)

/-- A character completes on a line (R1, R2). -/
def State.completeCharacter (i : Fin 8) (bits : Byte) (parityBit stopHigh : Bool) (s : State) : State :=
  let l := s.lines[i]
  let b := charValue l.cfg.sevenBits bits
  let errored := parityError l.cfg.parity b parityBit || !stopHigh
  let s1 := s.modLine i (Line.afterCharacter s.time.elapsed errored stopHigh)
  State.endLineEvent s (s1.character i b errored) i

/-- CHARACTER_COMPLETION (R1), with the bits as they were sampled (log 30); without a START_BIT before it, it stands
for the whole character (log 12). On a line that does not sample, or waits for its pin to be high, there is none
(log 1). -/
def execCharacterCompletion (line : Fin 8) (bits : Byte) (parityBit stopHigh : Bool) (s : State) :
    Host.Outcome State Fault Refusal :=
  let l := s.lines[line]
  if l.samples && !l.awaitHigh then
    .next (s.paced line (State.completeCharacter line bits parityBit stopHigh))
  else .next s

/-- The elapsed count at which an idle interval reaches the idle time (R3): bit times of `divisor` µs, with half
bit times rounded down to a µs (log 13). -/
def Line.idlePoint (l : Line) (v : IdleInterval) : Stamp :=
  pointAfterUs v.since (l.cfg.divisor * (2 * l.cfg.idleTime + v.halfBits) / 2)

/-- The idle timer of a line expires (R3, R7 to R10). -/
def State.idleExpires (i : Fin 8) (s : State) : State :=
  let s1 := s.modLine i fun l => { l with idle := none }
  let s2 :=
    match s.lines[i].reception, s.lines[i].current with
    | .receiving, some cur => s1.endToHunt i cur cur.lastAt (s.lines[i].cfg.mode != .gap)
    | .discarding, _ => s1.modLine i Line.toHunt
    | _, _ => s1
  State.endLineEvent s s2 i

/-- IDLE_TIMER_EXPIRY (R3). Without an idle interval, or inside a character, there is none (log 1). -/
def execIdleTimerExpiry (line : Fin 8) (s : State) : Host.Outcome State Fault Refusal :=
  let l := s.lines[line]
  match l.idle with
  | none => .next s
  | some v =>
    if l.samples && !l.inCharacter then
      .next ((s.advanceTo (l.idlePoint v)).paced line (State.idleExpires line))
    else .next s

/-- START_BIT (R1, R3): low at mid-bit the character proceeds and the idle interval ends; high it is a false
start and forgotten. Where the receiver does not look for a start bit there is none (log 1). -/
def execStartBit (line : Fin 8) (lowAtMid : Bool) (s : State) : Host.Outcome State Fault Refusal :=
  let l := s.lines[line]
  if l.samples && !l.awaitHigh && !l.inCharacter && lowAtMid then
    .next (s.modLine line fun l => { l with inCharacter := true, idle := none })
  else .next s

/-- PIN_SAMPLED_HIGH (R2 to R4): the wait ends and the idle interval begins. -/
def execPinSampledHigh (line : Fin 8) (s : State) : Host.Outcome State Fault Refusal :=
  let l := s.lines[line]
  if l.samples && l.awaitHigh then
    .next (s.modLine line fun l => { l with awaitHigh := false, idle := some ⟨s.time.elapsed, 0⟩ })
  else .next s

/-! ### The requests to a line -/

/-- The effects of an accepted CONFIGURE_LINE (R21). -/
def State.configure (s : State) (i : Fin 8) (cfg : LineConfig) : State :=
  ({ s with capture := s.capture.emptyHistory i }).modLine i fun l =>
    { l with cfg := cfg, nextSeq := 0, counters := .zero, attention := false }

/-- The body of CONFIGURE_LINE (R21). -/
def configureLineBody (line : Byte) (cfg : LineArg) (s : State) : State × Answer :=
  match lineOf line with
  | none => (s, .bare .badArgument)
  | some i =>
    if s.lines[i].state ≠ .stopped ∨ s.capture.handed[i] ≠ [] then (s, .bare .wrongState)
    else
      match lineConfigOf cfg with
      | none => (s, .bare .badArgument)
      | some c => (State.conclude s (s.configure i c), .ok [])

/-- CONFIGURE_LINE (R21). -/
def execConfigureLine (tag line : Byte) (cfg : LineArg) (s : State) : Host.Outcome State Fault Refusal :=
  .next (s.serve (.configureLine tag line cfg) (configureLineBody line cfg))

/-- The state a STOPPED line is started into (R16). -/
def Line.startState (l : Line) (total : Nat) (pressure : Bool) : LineState :=
  if l.cfg.policy = .feed ∧ l.cfg.depth ≤ total then .suspended
  else if pressure && l.cfg.sheddable then .shed
  else .active

/-- The receiver of a line that leaves STOPPED (R4). -/
def Line.startReception (now : Stamp) (pinHigh : Bool) (l : Line) : Line :=
  match l.cfg.mode with
  | .marked => { l.quiet with awaitHigh := !pinHigh }
  | .gap | .counted =>
    { l.quiet with reception := .discarding, awaitHigh := !pinHigh,
                   idle := if pinHigh then some ⟨now, 0⟩ else none }

/-- The body of START_LINE (R16), with the level of the pin (R4). The line enters its state as at any event, which sets
the attention flag of a line that enters SUSPENDED or SHED (R20, R200, log 33). -/
def startLineBody (line : Byte) (pinHigh : Bool) (s : State) : State × Answer :=
  match lineOf line with
  | none => (s, .bare .badArgument)
  | some i =>
    if s.lines[i].state ≠ .stopped then (s, .bare .wrongState)
    else
      let st := s.lines[i].startState (s.capture.total i) s.capture.pressure
      let s1 := s.modLine i fun l => (l.enter st).startReception s.time.elapsed pinHigh
      (State.conclude s s1, .ok [st.code])

/-- START_LINE (R16). -/
def execStartLine (tag line : Byte) (pinHigh : Bool) (s : State) : Host.Outcome State Fault Refusal :=
  .next (s.serve (.startLine tag line pinHigh) (startLineBody line pinHigh))

/-- A sampling line is stopped (R17). -/
def Line.stop (l : Line) : Line :=
  if l.storing then l.enter .stopping
  else if l.awaiting = [] then l.quiet.enter .stopped
  else l.quiet.enter .stopping

/-- The body of STOP_LINE (R17). -/
def stopLineBody (line : Byte) (s : State) : State × Answer :=
  match lineOf line with
  | none => (s, .bare .badArgument)
  | some i =>
    if s.lines[i].state = .stopped ∨ s.lines[i].state = .stopping then (s, .ok [s.lines[i].state.code])
    else
      let l := s.lines[i].stop
      (State.conclude s (s.setLine i l), .ok [l.state.code])

/-- STOP_LINE (R17). -/
def execStopLine (tag line : Byte) (s : State) : Host.Outcome State Fault Refusal :=
  .next (s.serve (.stopLine tag line) (stopLineBody line))

/-- The reply data of GET_LINE_COUNTS (R23). -/
def Line.countsBytes (l : Line) : List Byte :=
  [l.state.code, l.reception.code, boolByte l.attention] ++ encLE 2 l.nextSeq
    ++ ([l.counters.kept, l.counters.bad, l.counters.dropped, l.counters.cut, l.counters.lost, l.counters.shed,
        l.counters.charErrors] : List Word).flatMap fun c => encLE 4 c

/-- The body of GET_LINE_COUNTS (R23). -/
def getLineCountsBody (line clear : Byte) (s : State) : State × Answer :=
  match lineOf line, boolOf clear with
  | some i, some c =>
    (if c then s.modLine i fun l => { l with counters := .zero, attention := false } else s,
      .ok s.lines[i].countsBytes)
  | _, _ => (s, .bare .badArgument)

/-- GET_LINE_COUNTS (R23). -/
def execGetLineCounts (tag line clear : Byte) (s : State) : Host.Outcome State Fault Refusal :=
  .next (s.serve (.getLineCounts tag line clear) (getLineCountsBody line clear))

end Sys2Proof.Machine
end

