-- ==== Sys2Proof/Machine/Readout.lean ====
section
/-! DEFINITION. Reading out (spec/08): live frames, the record index, and records read from the array. -/

namespace Sys2Proof.Machine

/-! ### Live frames (R151 to R155) -/

/-- A frame descriptor, 21 bytes (R151, R190). -/
def Frame.descriptor (f : Frame) : List Byte :=
  u8 f.line.val ++ encLE 2 f.seq ++ [f.place.code] ++ time48 f.start ++ encLE 4 f.duration ++ u16 f.length
    ++ [f.check.code, f.flags.code] ++ encLE 2 f.matchSet ++ u8 f.pins

/-- The descriptor of the frame in a slot. -/
def Capture.descriptor (c : Capture) (id : Nat) : List Byte := ((c.frame? id).map Frame.descriptor).getD []

/-- A list of a line, by its code: 0 HISTORY, 1 HANDED_OUT (R189). -/
def Capture.listOf (c : Capture) (i : Fin 8) (list : Byte) : Option (List Nat × List Nat) :=
  match list.toNat with
  | 0 => some (c.hist[i], c.handed[i])
  | 1 => some (c.handed[i], c.hist[i])
  | _ => none

/-- The frames of a list from the first that carries a sequence number on (R152); none when no frame does. -/
def Capture.fromSeq (c : Capture) (seq : Half) : List Nat → Option (List Nat)
  | [] => none
  | id :: rest => if c.seqOf id = seq then some (id :: rest) else c.fromSeq seq rest

/-- A maximum count is in range. -/
def countInRange (n : Byte) (top : Nat) : Bool := decide (1 ≤ n.toNat ∧ n.toNat ≤ top)

/-- The reply data of LIST_FRAMES (R153, R154). -/
def State.framesReply (s : State) (i : Fin 8) (list : Byte) (named other : List Nat) (after : Option Half)
    (max : Nat) : List Byte :=
  let l := s.lines[i]
  let found := after.bind fun q => s.capture.fromSeq q named
  let shown := (found.map List.tail).getD named
  let carried := shown.take max
  u8 i.val ++ [list, l.state.code, l.cfg.policy.code] ++ u8 l.cfg.depth ++ u8 named.length ++ u8 other.length
    ++ [boolByte found.isSome] ++ u8 carried.length ++ [boolByte (decide (max < shown.length))]
    ++ carried.flatMap s.capture.descriptor

/-- The body of LIST_FRAMES (R153). -/
def listFramesBody (line list present : Byte) (after : Half) (max : Byte) (s : State) : State × Answer :=
  match lineOf line with
  | none => (s, .bare .badArgument)
  | some i =>
    match s.capture.listOf i list with
    | none => (s, .bare .badArgument)
    | some (named, other) =>
      if countInRange max 32 then
        (s, .ok (s.framesReply i list named other (if presenceOf present then some after else none) max.toNat))
      else (s, .bare .badArgument)

/-- LIST_FRAMES (R153). -/
def execListFrames (tag line list present : Byte) (after : Half) (max : Byte) (s : State) :
    Host.Outcome State Fault Refusal :=
  .next (s.serve (.listFrames tag line list present after max) (listFramesBody line list present after max))

/-- The body of READ_FRAME (R155). -/
def readFrameBody (line : Byte) (seq : Half) (s : State) : State × Answer :=
  match lineOf line with
  | none => (s, .bare .badArgument)
  | some i =>
    match (s.capture.fromSeq seq (s.capture.handed[i] ++ s.capture.hist[i])).bind List.head? with
    | none => (s, .bare .notFound)
    | some id =>
      (s, .ok (s.capture.descriptor id ++ ((s.capture.frame? id).map s.capture.frameBytes).getD []))

/-- READ_FRAME (R155). -/
def execReadFrame (tag line : Byte) (seq : Half) (s : State) : Host.Outcome State Fault Refusal :=
  .next (s.serve (.readFrame tag line seq) (readFrameBody line seq))

/-! ### TAKE_FRAMES and RELEASE_FRAMES (R157, R158) -/

/-- The body of TAKE_FRAMES (R157). -/
def takeFramesBody (line count : Byte) (s : State) : State × Answer :=
  match lineOf line, countInRange count 32 with
  | some i, true =>
    if s.lines[i].cfg.policy = .ring then (s, .bare .wrongState)
    else
      let moved := (s.capture.hist[i]).take count.toNat
      let c := s.capture.take i count.toNat
      ({ s with capture := c },
        .ok (u8 i.val ++ u8 moved.length ++ moved.flatMap (fun id => encLE 2 (s.capture.seqOf id))
          ++ u8 (c.hist[i]).length ++ u8 (c.handed[i]).length ++ u8 s.lines[i].cfg.depth
          ++ [s.lines[i].state.code]))
  | _, _ => (s, .bare .badArgument)

/-- TAKE_FRAMES (R157). -/
def execTakeFrames (tag line count : Byte) (s : State) : Host.Outcome State Fault Refusal :=
  .next (s.serve (.takeFrames tag line count) (takeFramesBody line count))

/-- The number of frames of a list that no incident pins. -/
def Capture.unpinned (c : Capture) (ids : List Nat) : Nat :=
  (ids.filter fun id => (c.frame? id).any fun f => f.pins == 0).length

/-- The effects of a release of the `n` oldest handed-out frames (R35, R159): frames, pressure, then the line. -/
def State.release (s : State) (i : Fin 8) (n : Nat) : State :=
  let s1 := State.evalPressure s { s with capture := s.capture.release i n }
  State.announce s (s1.modLine i fun l => l.resume (s1.capture.total i) s1.capture.pressure)

/-- The body of RELEASE_FRAMES (R158). -/
def releaseFramesBody (line : Byte) (seq : Half) (s : State) : State × Answer :=
  match lineOf line with
  | none => (s, .bare .badArgument)
  | some i =>
    if s.lines[i].cfg.policy = .ring then (s, .bare .wrongState)
    else
      match s.capture.fromSeq seq s.capture.handed[i] with
      | none => (s, .bare .notFound)
      | some rest =>
        let n := (s.capture.handed[i]).length + 1 - rest.length
        let freed := s.capture.unpinned ((s.capture.handed[i]).take n)
        let t := s.release i n
        (t, .ok (u8 i.val ++ u8 n ++ u8 freed ++ u8 (n - freed) ++ u8 (t.capture.hist[i]).length
          ++ u8 (t.capture.handed[i]).length ++ [t.lines[i].state.code] ++ u16 t.capture.freeCount))

/-- RELEASE_FRAMES (R158). -/
def execReleaseFrames (tag line : Byte) (seq : Half) (s : State) : Host.Outcome State Fault Refusal :=
  .next (s.serve (.releaseFrames tag line seq) (releaseFramesBody line seq))

/-! ### LIST_RECORDS (R162, R163) -/

/-- Record flags: bit 0 PRE_TRIMMED, bit 1 RETRIED, bit 2 closed-full (R189). -/
def IndexEntry.flags (e : IndexEntry) : Byte :=
  (if e.preTrimmed then 1 else 0) ||| (if e.retried then 2 else 0) ||| (if e.closedFull then 4 else 0)

/-- An index entry as reported, 23 bytes (R162, R190). -/
def IndexEntry.bytes (e : IndexEntry) : List Byte :=
  encLE 4 e.serial ++ u8 e.sector.val ++ u16 e.offset ++ u16 e.length ++ encLE 2 e.id
    ++ [e.source, e.entry, e.triggerLine] ++ time48 e.triggerTime ++ u16 e.frameCount ++ [e.flags]

/-- Whether the sector filter admits a sector; FFh admits all (R163). -/
def filterAdmits (filter : Byte) (x : Fin 64) : Bool := filter == 0xFF#8 || filter.toNat == x.val

/-- The body of LIST_RECORDS (R163). -/
def listRecordsBody (first : Word) (filter max : Byte) (s : State) : State × Answer :=
  if (filter ≠ 0xFF#8 ∧ 64 ≤ filter.toNat) ∨ countInRange max 40 = false then (s, .bare .badArgument)
  else if s.store.state = .scanning then (s, .bare .notReady)
  else
    let es := s.records.index.filter fun e => decide (first ≤ e.serial) && filterAdmits filter e.sector
    let carried := es.take max.toNat
    (s, .ok (u16 s.records.index.length ++ u8 carried.length ++ [boolByte (decide (max.toNat < es.length))]
      ++ carried.flatMap IndexEntry.bytes))

/-- LIST_RECORDS (R163). -/
def execListRecords (tag : Byte) (first : Word) (filter max : Byte) (s : State) :
    Host.Outcome State Fault Refusal :=
  .next (s.serve (.listRecords tag first filter max) (listRecordsBody first filter max))

/-! ### The entry walk (R165, R166) -/

/-- The sound entries of a record's bytes, each with its offset and its stored length, up to the first that is not
sound (R165); `limit` is the offset of the end marker. -/
def entryWalk (bytes : List Byte) (limit : Nat) : Nat → Nat → List (Nat × Nat)
  | 0, _ => []
  | n + 1, at_ =>
    let len := leNat ((bytes.drop (at_ + 6)).take 2)
    if (1 ≤ len ∧ len ≤ 1024) ∧ at_ + 24 + roundUp4 len ≤ limit then
      (at_, len) :: entryWalk bytes limit n (at_ + 24 + roundUp4 len)
    else []

/-- The sound entries of an indexed record. -/
def IndexEntry.walk (e : IndexEntry) (bytes : List Byte) : List (Nat × Nat) :=
  entryWalk bytes (e.length - 16) e.frameCount 64

/-- The entries that fit a byte budget, in order (R166). -/
def fitting : Nat → List (Nat × Nat) → List (Nat × Nat)
  | _, [] => []
  | room, x :: rest => if 24 + x.2 ≤ room then x :: fitting (room - (24 + x.2)) rest else []

/-- A reported frame entry, 24 + L bytes (R166, R190), from the record's bytes. -/
def reportedEntry (bytes : List Byte) (index : Nat) (x : Nat × Nat) : List Byte :=
  let stored := bytes.drop x.1
  u16 index ++ u16 x.1 ++ stored.take 3 ++ u8 (roundUp4 x.2 - x.2) ++ (stored.drop 4).take 2 ++ u16 x.2
    ++ (stored.drop 8).take 2 ++ (stored.drop 10).take 4 ++ (stored.drop 14).take 6 ++ (stored.drop 24).take x.2

/-- Reported entries, numbered from an index on. -/
def reportedEntries (bytes : List Byte) : Nat → List (Nat × Nat) → List Byte
  | _, [] => []
  | k, x :: rest => reportedEntry bytes k x ++ reportedEntries bytes (k + 1) rest

/-- The reply data of READ_RECORD (R166, R190). -/
def IndexEntry.readReply (e : IndexEntry) (first : Nat) (bytes : List Byte) : List Byte :=
  let sound := e.walk bytes
  let carried := fitting Config.readBudget (sound.drop first)
  let next := first + carried.length
  let broken := decide (sound.length < e.frameCount) && decide (sound.length ≤ next)
  e.bytes ++ u16 first ++ u8 carried.length ++ u16 next ++ u16 (e.frameCount - next) ++ [boolByte broken]
    ++ u16 (if broken then sound.length else 0xFFFF) ++ reportedEntries bytes first carried

/-! ### VERIFY_RECORD (R168, R169) -/

/-- The record state as read from its byte (R121): 0 BEGUN, 1 COMPLETE, 2 DISCARDED. -/
def recordStateCode (b : Byte) : Byte :=
  if b &&& 0x30#8 = 0 then 2 else if b &&& 0x40#8 = 0 then 1 else 0

/-- The header CRC of a stored header: its bytes but for the state and the CRC itself (R120, log 20). -/
def headerCrcOf (header : List Byte) : Half :=
  crc16 (header.take 4 ++ (header.drop 5).take 25 ++ (header.drop 32).take 32)

/-- Magic and header CRC agree (R142, R168). -/
def headerGood (header : List Byte) : Bool :=
  header.take 4 == encLE 4 recordMagic && crcAt header 30 == headerCrcOf header

/-- The end marker holds its magic and both echoes (R143, R168). -/
def markerGood (marker : List Byte) (serial : Word) (length : Nat) : Bool :=
  marker.take 4 == encLE 4 endMagic && (marker.drop 4).take 4 == encLE 4 serial
    && (marker.drop 8).take 2 == u16 length

/-- GOOD 1, BAD 2 (R189). -/
def goodByte (b : Bool) : Byte := if b then 1 else 2

/-- The walk report of VERIFY_RECORD and the index at which it broke: FFFFh when WHOLE (log 21); when only the end
of the walk is wrong the manual names no index, and it is a free value (log 23). -/
def IndexEntry.walkReport (e : IndexEntry) (bytes : List Byte) : List Byte :=
  let sound := e.walk bytes
  let endAt := 64 + (sound.map fun x => 24 + roundUp4 x.2).sum
  if sound.length < e.frameCount then 1 :: u16 sound.length
  else if endAt = e.length - 16 then 0 :: u16 0xFFFF
  else 1 :: encLE 2 (Config.walkEndIndex e.frameCount)

/-- The reply data of VERIFY_RECORD (R168, R169). -/
def IndexEntry.verifyReply (e : IndexEntry) (bytes : List Byte) : List Byte :=
  let marker := bytes.drop (e.length - 16)
  let header := bytes.take 64
  let stored := crcAt marker 10
  let computed := recordCrc header ((bytes.drop 64).take (e.length - 80))
  e.bytes ++ [goodByte (headerGood header), goodByte (markerGood marker e.serial e.length && stored == computed)]
    ++ crcBytes stored ++ crcBytes computed ++ e.walkReport bytes ++ [recordStateCode (byteAt bytes stateOffset)]

/-! ### Record reads (R102, R167) -/

/-- An active erase is suspended (R99, R102). -/
def EraseOp.suspend (now : Stamp) (e : EraseOp) : EraseOp :=
  match e.since with
  | some t => { e with active := e.activeBy now t, since := none }
  | none => e

/-- A suspended erase goes on (R102). -/
def EraseOp.resume (now : Stamp) (e : EraseOp) : EraseOp :=
  if e.since = none then { e with since := some now } else e

/-- The erase in progress, if the operation is one, is changed. -/
def ArrayOp.mapErase (f : EraseOp → EraseOp) : ArrayOp → ArrayOp
  | .erase e => .erase (f e)
  | .program p => .program p

/-- A record read reaches the array (R102): an active erase is suspended, at once in this model (log 17); the
read then waits for a program unit, or is served. The handler stays EXECUTING. -/
def State.beginRead (s : State) (job : ReadJob) : State :=
  { s with store := { s.store with
      read := some job, op := s.store.op.map (ArrayOp.mapErase (EraseOp.suspend s.time.elapsed)) } }

/-- The execution of a record request: its read begins, or its refusal is answered (R164, R167, R168). -/
def State.serveRead (s : State) (i : Instr) (check : State → Except Result ReadJob) : State :=
  s.request (reqOf i) fun s =>
    match check s with
    | .ok job => s.beginRead job
    | .error r => s.answer (reqOf i) false fun s => (s, .bare r)

/-- The checks of READ_RECORD (R164). -/
def readRecordCheck (serial : Word) (first : Half) (s : State) : Except Result ReadJob :=
  if s.store.state = .scanning then .error .notReady
  else
    match s.records.entryOf serial with
    | none => .error .notFound
    | some e => if e.frameCount < first.toNat then .error .badArgument else .ok (.read e first.toNat)

/-- READ_RECORD (R164): its read begins here and ends at ARRAY_READ_DONE. -/
def execReadRecord (tag : Byte) (serial : Word) (first : Half) (s : State) : Host.Outcome State Fault Refusal :=
  .next (s.serveRead (.readRecord tag serial first) (readRecordCheck serial first))

/-- The checks of VERIFY_RECORD (R168). -/
def verifyRecordCheck (serial : Word) (s : State) : Except Result ReadJob :=
  if s.store.state = .scanning then .error .notReady
  else
    match s.records.entryOf serial with
    | none => .error .notFound
    | some e => .ok (.verify e)

/-- VERIFY_RECORD (R168): its read begins here and ends at ARRAY_READ_DONE. -/
def execVerifyRecord (tag : Byte) (serial : Word) (s : State) : Host.Outcome State Fault Refusal :=
  .next (s.serveRead (.verifyRecord tag serial) (verifyRecordCheck serial))

/-- The bytes of an indexed record in the array. -/
def Store.recordBytes (st : Store) (e : IndexEntry) : List Byte :=
  (st.sectors[e.sector].mem).readRange e.offset e.length

/-- The reply data of a record read. -/
def Store.readData (st : Store) : ReadJob → List Byte
  | .read e first => e.readReply first (st.recordBytes e)
  | .verify e => e.verifyReply (st.recordBytes e)

/-- The end of a read (R102): a suspended erase goes on, a waiting commit starts its next unit, and the arbiter
makes the grant it would have made. -/
def State.endRead (s : State) : State :=
  let s := { s with store := { s.store with
    read := none, op := s.store.op.map (ArrayOp.mapErase (EraseOp.resume s.time.elapsed)) } }
  s.resumeCommit.arbitrate

/-- A program unit is in progress: a read waits for its completion (R102). -/
def Store.programming (st : Store) : Bool :=
  match st.op with
  | some (.program _) => true
  | _ => false

/-- ARRAY_READ_DONE (R167): the read returns its data and the reply is placed. Without a read, or while it waits
for a program unit, there is none (log 1). -/
def execArrayReadDone (s : State) : Host.Outcome State Fault Refusal :=
  match s.store.read, s.link.handler with
  | some job, .executing q =>
    if s.store.programming then .next s
    else .next (s.answer q false fun t => (t.endRead, .ok (s.store.readData job)))
  | _, _ => .next s

end Sys2Proof.Machine
end

