-- ==== Sys2Proof/Machine/Status.lean ====
section
/-! DEFINITION. The requests of spec/10 that concern the part as a whole. -/

namespace Sys2Proof.Machine

/-- The reply data of IDENTIFY (R194; field sizes by R189, log 21). -/
def State.identity (s : State) : List Byte :=
  u16 810 ++ u8 1 ++ u8 s.link.straps.toNat ++ u8 8 ++ u16 Config.pageCount ++ u8 Config.pageSize ++ u8 16 ++ u8 4
    ++ u8 64 ++ u16 Config.sectorSize ++ u16 Config.indexCapacity ++ u8 Config.workCapacity
    ++ u16 Config.maxPayload ++ [s.time.cause.code]

/-- IDENTIFY (R194). -/
def execIdentify (tag : Byte) (s : State) : Host.Outcome State Fault Refusal :=
  .next (s.serve (.identify tag) fun s => (s, .ok s.identity))

/-- The attention flags as a set of lines (R195). -/
def State.attentionSet (s : State) : Byte :=
  allLines.foldl (fun set i => if s.lines[i].attention then set ||| (1#8 <<< i.val) else set) 0

/-- The incident unit's part of GET_STATUS. -/
def Incidents.status (u : Incidents) : List Byte :=
  u8 u.ids.length ++ u8 (collectingCount u) ++ u8 u.queue.length ++ [boolByte u.evtOut] ++ encLE 2 u.idCounter

/-- The store's part of GET_STATUS; index entries and next serial are 0 while SCANNING. -/
def State.storePart (s : State) : List Byte :=
  let scanning := s.store.state == .scanning
  [s.store.state.code, s.store.faults.code, fullCode s.records.full]
    ++ u16 (if scanning then 0 else s.records.index.length)
    ++ (if scanning then u32 0 else encLE 4 s.records.nextSerial)

/-- The link controller's part of GET_STATUS. -/
def Link.status (l : Link) : List Byte :=
  u8 l.requests.length ++ u8 l.notices.length ++ u16 l.lost.count ++ u16 l.counters.badEnvelope
    ++ u16 l.counters.badCheck ++ u16 l.counters.timeout ++ u16 l.counters.refused ++ u16 l.counters.otherKind
    ++ encLE 2 l.kindMask ++ [l.lineMask]

/-- The reply data of GET_STATUS (R195). -/
def State.status (s : State) : List Byte :=
  time48 s.time.tod ++ time48 s.time.elapsed ++ [s.time.cause.code]
    ++ (allLines.map fun i => s.lines[i].state.code) ++ [s.attentionSet] ++ u16 s.capture.freeCount
    ++ [boolByte s.capture.pressure] ++ u16 s.capture.lowMark ++ encLE 4 s.matcher.missed ++ s.inc.status
    ++ s.storePart ++ s.link.status

/-- GET_STATUS (R195). -/
def execGetStatus (tag : Byte) (s : State) : Host.Outcome State Fault Refusal :=
  .next (s.serve (.getStatus tag) fun s => (s, .ok s.status))

/-- The body of SET_TIME (R193). -/
def setTimeBody (time : Stamp) (s : State) : State × Answer :=
  ({ s with time := { s.time with tod := time } }, .ok (time48 s.time.tod ++ time48 time))

/-- SET_TIME (R193). -/
def execSetTime (tag : Byte) (time : Stamp) (s : State) : Host.Outcome State Fault Refusal :=
  .next (s.serve (.setTime tag time) (setTimeBody time))

/-- Bits 1 and 14 of the kind mask, always set (R197). -/
def alwaysKinds : Half := 0x4002#16

/-- The body of SET_NOTICE_MASK (R197). -/
def setNoticeMaskBody (kinds : Half) (lines : Byte) (s : State) : State × Answer :=
  if inSet kinds 0 || inSet kinds 15 then (s, .bare .badArgument)
  else
    let k := kinds ||| alwaysKinds
    ({ s with link := { s.link with kindMask := k, lineMask := lines } }, .ok (encLE 2 k ++ [lines]))

/-- SET_NOTICE_MASK (R197). -/
def execSetNoticeMask (tag : Byte) (kinds : Half) (lines : Byte) (s : State) : Host.Outcome State Fault Refusal :=
  .next (s.serve (.setNoticeMask tag kinds lines) (setNoticeMaskBody kinds lines))

/-- The body of CLEAR_FAULTS (R198). -/
def clearFaultsBody (s : State) : State × Answer :=
  ({ s with store := { s.store with faults := noFaults } }, .ok [s.store.faults.code])

/-- CLEAR_FAULTS (R198). -/
def execClearFaults (tag : Byte) (s : State) : Host.Outcome State Fault Refusal :=
  .next (s.serve (.clearFaults tag) clearFaultsBody)

/-- RESTART (R185, R199): OK, and the handler is HALTED. -/
def execRestart (tag : Byte) (s : State) : Host.Outcome State Fault Refusal :=
  let q := reqOf (.restart tag)
  .next (s.request q fun s => s.answer q true fun s => (s, .ok []))

end Sys2Proof.Machine
end

