-- ==== Sys2Proof/Machine/Scan.lean ====
section
/-! DEFINITION. The start-up scan (spec/07): classing, the record walk, the settled sectors, the rebuilt index, and
its finish. The whole scan is computed from the array at its finish (log 27). -/

namespace Sys2Proof.Machine

/-! ### Classing (R139, R141) -/

/-- Every byte reads FFh. -/
def allBlank (bytes : List Byte) : Bool := bytes.all fun b => b == 0xFF#8

/-- A valid sector header (R119). -/
def sectorHeaderGood (h : List Byte) : Bool :=
  h.take 4 == encLE 4 sectorMagic && crcAt h 8 == crc16 (h.take 8)

/-- The class of a sector and whether it is damaged (R141). -/
def Sector.classify (x : Sector) : SectorClass × Bool :=
  if x.eraseComplete && x.mem.blankIn 0 Config.sectorSize then (.erased, false)
  else if !x.eraseComplete then (.dirty, false)
  else
    let h := x.mem.readRange 0 64
    if allBlank h then (.dirty, false)
    else if sectorHeaderGood h then (.headed (decLE 4 (h.drop 4)), false)
    else (.dirty, true)

/-! ### The walk (R142 to R144) -/

/-- The record length field of a stored header. -/
def headerSize (h : List Byte) : Nat := leNat ((h.drop 12).take 2)
/-- The serial field of a stored header. -/
def headerSerial (h : List Byte) : Word := decLE 4 (h.drop 8)

/-- The header at an offset is valid, against the highest serial seen so far (R142). -/
def headerValid (h : List Byte) (at_ : Nat) (highest : Option Word) : Bool :=
  headerGood h && headerSerial h != 0 && headerSerial h != 0xFFFFFFFF#32 && headerSize h % 4 == 0
    && decide (80 ≤ headerSize h) && decide (at_ + headerSize h ≤ Config.sectorSize)
    && (highest.all fun t => decide (t < headerSerial h))

/-- The index entry of a record found complete, from its header (R143, R146). -/
def foundEntry (x : Fin 64) (at_ : Nat) (h : List Byte) : IndexEntry :=
  { serial := headerSerial h, sector := x, offset := at_, length := headerSize h, id := decLE 2 (h.drop 14),
    source := byteAt h 5, entry := byteAt h 6, triggerLine := byteAt h 7, triggerTime := decLE 6 (h.drop 18),
    frameCount := leNat ((h.drop 28).take 2), preTrimmed := inSet (byteAt h 25) 0, retried := inSet (byteAt h 25) 1,
    closedFull := byteAt h 26 == CloseReason.full.code }

/-- Where the walk of a sector stands: end of records or closing offset once it has ended, live records and dead
bytes so far. -/
structure WalkEnd where
  endAt    : Nat
  closedAt : Option Nat
  live     : Nat
  dead     : Nat
  deriving DecidableEq, Repr

/-- The walk is closed at an offset (R144): the bytes behind it are dead. -/
def closeWalk (at_ live dead : Nat) : WalkEnd := ⟨at_, some at_, live, dead + (Config.sectorSize - at_)⟩

/-- The tail check where the walk ends unclosed (R144). -/
def endWalk (m : Memory) (at_ live dead : Nat) (w : ScanWork) : ScanWork × WalkEnd :=
  if m.blankIn at_ Config.sectorSize then (w, ⟨at_, none, live, dead⟩)
  else ({ w with damage := true }, closeWalk at_ live dead)

/-- The walk of the records of a sector (R142 to R144). -/
def walkRecords (m : Memory) (x : Fin 64) : Nat → Nat → Nat → Nat → ScanWork → ScanWork × WalkEnd
  | 0, at_, live, dead, w => endWalk m at_ live dead w
  | n + 1, at_, live, dead, w =>
    if 32704 < at_ then endWalk m at_ live dead w
    else
      let h := m.readRange at_ 64
      if allBlank h then endWalk m at_ live dead w
      else if !headerValid h at_ w.highestSerial then ({ w with damage := true }, closeWalk at_ live dead)
      else
        let w := { w with highestSerial := some (headerSerial h) }
        let size := headerSize h
        match (recordStateCode (byteAt h stateOffset)).toNat with
        | 2 => walkRecords m x n (at_ + size) live (dead + size) w
        | 1 =>
          if markerGood (m.readRange (at_ + size - 16) 16) (headerSerial h) size then
            walkRecords m x n (at_ + size) (live + 1) dead { w with found := w.found ++ [foundEntry x at_ h] }
          else ({ w with torn := w.torn + 1, damage := true }, closeWalk at_ live dead)
        | _ => ({ w with torn := w.torn + 1 }, closeWalk at_ live dead)

/-- More steps than a sector has records: each is 80 bytes at least. -/
def walkFuel : Nat := 410

/-- The walk of one headed sector, its finding added. -/
def Store.walkSector (st : Store) (w : ScanWork) (c : Fin 64 × Word) : ScanWork :=
  let r := walkRecords (st.sectors[c.1].mem) c.1 walkFuel Config.bodyStart 0 0 w
  { r.1 with findings := r.1.findings ++ [⟨c.1, .headed c.2, r.2.endAt, r.2.closedAt, r.2.live, r.2.dead⟩] }

/-- Place a headed sector by its sequence, behind those of equal sequence (R142). -/
def placeHeaded (c : Fin 64 × Word) : List (Fin 64 × Word) → List (Fin 64 × Word)
  | [] => [c]
  | d :: rest => if c.2 < d.2 then c :: d :: rest else d :: placeHeaded c rest

/-- The headed sectors in the order of the walk. -/
def Store.headed (st : Store) : List (Fin 64 × Word) :=
  allSectors.foldl (fun acc x =>
    match (st.sectors[x].classify).1 with
    | .headed seq => placeHeaded (x, seq) acc
    | _ => acc) []

/-- The findings of the sectors that are not headed: live 0, dead 0 (R141). -/
def Store.bareFindings (st : Store) : List SectorFinding :=
  allSectors.filterMap fun x =>
    match (st.sectors[x].classify).1 with
    | .headed _ => none
    | c => some ⟨x, c, 0, none, 0, 0⟩

/-- The whole scan of the array (R141 to R144). -/
def Store.scanAll (st : Store) : ScanWork :=
  let heads := st.headed
  let w := { ScanWork.fresh st.scan.cause with
    damage := allSectors.any (fun x => (st.sectors[x].classify).2), findings := st.bareFindings,
    highestSeq := heads.getLast?.map (·.2) }
  heads.foldl st.walkSector w

/-! ### Settling (R145 to R148) -/

/-- The last headed sector, whose finding is the last one added (R145). -/
def ScanWork.lastHeaded (w : ScanWork) : Option SectorFinding :=
  w.findings.getLast?.bind fun f =>
    match f.cls with
    | .headed _ => some f
    | _ => none

/-- The records indexed: the 1024 of highest serial (R146). -/
def ScanWork.indexed (w : ScanWork) : List IndexEntry := lastN Config.indexCapacity w.found
/-- The records left out of the index for want of entries (R146). -/
def ScanWork.leftOut (w : ScanWork) : List IndexEntry := w.found.take (w.found.length - Config.indexCapacity)

/-- A sector's table entry from its finding (R145, R146, R148). -/
def Sector.settled (w : ScanWork) (f : SectorFinding) (x : Sector) : Sector :=
  match f.cls with
  | .erased => { x with state := .erased, seq := none, fillOffset := none, live := 0, dead := 0, pending := false }
  | .dirty =>
    { x with state := .dirty, seq := none, fillOffset := none, live := 0, dead := 0, pending := false }.settle
  | .headed seq =>
    let live := (w.indexed.filter fun e => e.sector == f.sector).length
    let dead := f.dead + lengthsOf (w.leftOut.filter fun e => e.sector == f.sector)
    if w.lastHeaded = some f ∧ f.closedAt = none ∧ x.protection = .unlocked then
      { x with state := .opened, seq := some seq, fillOffset := some f.endAt, live := live, dead := dead,
               pending := false }
    else
      let tail := if f.closedAt = none then Config.sectorSize - f.endAt else 0
      { x with state := .full, seq := some seq, fillOffset := none, live := live, dead := dead + tail,
               pending := false }.settle

/-- The sector table takes the findings (R149). -/
def Store.settleAll (st : Store) (w : ScanWork) : Vector Sector 64 :=
  vmap st.sectors fun x v =>
    match w.findings.find? fun f => f.sector == x with
    | some f => v.settled w f
    | none => v

/-- One above the highest serial seen, which is FFFFFFFEh at most, or 1 (R147). -/
def oneAbove (h : Option Word) : Word := (h.map (· + 1)).getD 1

/-- One above the highest sector sequence seen, or 1 (R147); above the largest it is a free value (log 37). -/
def sequenceAbove (h : Option Word) : Word := (h.map nextSequence).getD 1

/-- The STARTED notice (R149). -/
def State.startedNotice (s : State) : Notice :=
  .started s.store.scan.cause s.records.index.length s.store.scan.torn (s.store.countIn .erased)
    (s.store.countIn .opened) (s.store.countIn .full) (s.store.countIn .dirty) s.records.nextSerial s.store.faults

/-- The scan finishes (R149): tables, index, serial, sequence, SCAN_DAMAGE and READY at one event; STARTED, then the
first grant. -/
def State.finishScan (s : State) : State :=
  let w := s.store.scanAll
  let s := { s with
    store := { s.store with
      sectors := s.store.settleAll w, nextSeq := sequenceAbove w.highestSeq, state := .ready, scan := w
      faults := { s.store.faults with scanDamage := s.store.faults.scanDamage || w.damage } }
    records := { s.records with index := w.indexed, nextSerial := oneAbove w.highestSerial } }
  (s.notify s.startedNotice).arbitrate

/-- SCAN_FINISH (R149); while the store is READY no scan runs and there is none (log 1). -/
def execScanFinish (s : State) : Host.Outcome State Fault Refusal :=
  if s.store.state = .scanning then .next s.finishScan else .next s

end Sys2Proof.Machine
end

