-- ==== Sys2Proof/Machine/Reset.lean ====
section
/-! DEFINITION. The resets (R24, R47, R70, R96, R117, R118, R138, R140, R185 to R187, R201), the end of a frame on
TXD, and the passing of time. -/

namespace Sys2Proof.Machine

/-! ### An array operation cut short (R98, R99, R117) -/

/-- The bytes a program unit cut short leaves: between former and intended, by free values (R98, log 10). -/
def partBytes (key : Nat) (former written : List Byte) : List Byte :=
  (List.range former.length).map fun i =>
    former.getD i 0xFF#8 &&& (written.getD i 0xFF#8 ||| Config.freeByte key i)

/-- The array after the operation in progress is cut short: an erase leaves its sector's contents undefined, a
program unit its bytes partly programmed. -/
def State.cutArray (s : State) : State :=
  match s.store.op with
  | none => s
  | some (.erase e) =>
    { (s.modSector e.sector fun x => { x with mem := ⟨.undef s.freeKey, []⟩, eraseComplete := false }) with
      freeKey := s.freeKey + 1 }
  | some (.program p) =>
    { (s.modSector p.sector fun x =>
        { x with mem := x.mem.writeBytes p.offset (partBytes s.freeKey (s.formerBytes p) p.bytes) }) with
      freeKey := s.freeKey + 1 }

/-! ### HARD_RESET and RESTART_TAKES_EFFECT -/

/-- A hard reset (R140): every block to its reset state, the straps sampled, the scan begun. The array and the
erase status are kept; page memory becomes undefined (R47). -/
def State.hardReset (s : State) (straps : BitVec 2) : State :=
  let s := s.cutArray
  { lines := Vector.replicate 8 .reset, capture := .reset ⟨.undef s.freeKey, []⟩, matcher := .reset, inc := .reset,
    store := .scanning (vmap s.store.sectors fun _ x => .emptied x.mem x.eraseComplete .unlocked) noFaults
      .hardReset,
    records := .reset, time := ⟨0, 0, .hardReset⟩, link := .reset straps, freeKey := s.freeKey + 1,
    pending := s.pending }

/-- A restart takes effect (R118, R187, R199, R201): as a hard reset, but protection, sticky faults, link rate, both
clocks and the page memory are kept. -/
def State.restart (s : State) : State :=
  let s := s.cutArray
  { lines := Vector.replicate 8 .reset, capture := .reset s.capture.mem, matcher := .reset, inc := .reset,
    store := .scanning (vmap s.store.sectors fun _ x => .emptied x.mem x.eraseComplete x.protection)
      s.store.faults .restart,
    records := .reset, time := { s.time with cause := .restart }, link := .reset s.link.straps,
    freeKey := s.freeKey, pending := s.pending }

/-- HARD_RESET (R140). -/
def execHardReset (straps : BitVec 2) (s : State) : Host.Outcome State Fault Refusal := .next (s.hardReset straps)

/-- The RESTART reply is the frame being sent: the handler is HALTED and its reply has left the slot (R185). -/
def Link.restartSending (l : Link) : Bool :=
  match l.handler, l.slot, l.tx with
  | .halted, none, some (.reply _) => true
  | _, _, _ => false

/-- RESTART_TAKES_EFFECT (R185); only at the end of the RESTART reply (log 1). -/
def execRestartTakesEffect (s : State) : Host.Outcome State Fault Refusal :=
  if s.link.restartSending then .next s.restart else .next s

/-- TX_FRAME_END (R184; its bytes are not timed, log 25): the transmitter becomes idle and begins the next frame.
The end of the RESTART reply is the event at which the restart takes effect, and no further frame is begun (R185,
log 28). With no frame being sent there is none (log 1). -/
def execTxFrameEnd (s : State) : Host.Outcome State Fault Refusal :=
  if s.link.restartSending then .next s.restart
  else if s.link.tx = none then .next s
  else .next { s with link := ({ s.link with tx := none }).begin s.time.tod }

/-! ### The passing of time (log 2) -/

/-- An idle timer is due. -/
def State.idleDue (s : State) (i : Fin 8) : Bool :=
  let l := s.lines[i]
  l.samples && !l.inCharacter && l.idle.any fun v => reached s.time.elapsed (l.idlePoint v)

/-- A holdoff is due. -/
def State.holdoffDue (s : State) (e : Fin 16) : Bool :=
  s.matcher.entries[e].holdoffEnd.any fun t => reached s.time.elapsed t

/-- A post timer is due. -/
def State.postDue (s : State) (k : Fin 4) : Bool :=
  (s.inc.table[k]).any fun i => i.postTimer.any fun t => reached s.time.elapsed t

/-- The inter-byte timeout is due. -/
def State.interByteDue (s : State) : Bool :=
  s.link.hunter != .hunt && reached s.time.elapsed (pointAfterUs s.link.lastByteAt Config.interByteLimit)

/-- The time limit of the array operation, when it is due; a unit's cells are free values (log 10). -/
def State.arrayDue (s : State) : List Instr :=
  match s.store.op with
  | some (.program p) =>
    if reached s.time.elapsed (pointAfterUs p.since Config.programLimit) then
      [.programUnitTimeout ((List.range p.bytes.length).map fun i => p.bytes.getD i 0xFF#8 ||| Config.freeByte s.freeKey i)]
    else []
  | some (.erase e) =>
    if e.since.any fun t => reached s.time.elapsed (pointAfterUs t (Config.eraseLimit - e.active)) then [.eraseTimeout]
    else []
  | none => []

/-- The expiries that are due, as the commands that take them. -/
def State.due (s : State) : List Instr :=
  (allLines.filter s.idleDue).map .idleTimerExpiry ++ (allEntries.filter s.holdoffDue).map .holdoffExpiry
    ++ (allSlots.filter s.postDue).map .postTimerExpiry ++ (if s.interByteDue then [.interByteTimeout] else [])
    ++ s.arrayDue

/-- What happens when no command waits: both clocks advance by one µs, and the expiries that are then due wait in
the queue (R191, R192, log 2). -/
def State.idleTick (s : State) : State :=
  let s := { s with time := s.time.tick }
  let s := { s with pending := s.due }
  { s with freeKey := s.freeKey + 1 }

end Sys2Proof.Machine
end

