-- ==== Sys2Proof/Machine/Dispatch.lean ====
section
/-! DEFINITION. One arm per command: its meaning. -/

namespace Sys2Proof.Machine

/-- The effect of a command on everything but the queue. -/
def exec (i : Instr) (s : State) : Host.Outcome State Fault Refusal :=
  match i with
  | .hardReset straps => Sys2Proof.Machine.execHardReset straps s
  | .restartTakesEffect => Sys2Proof.Machine.execRestartTakesEffect s
  | .characterCompletion line bits parityBit stopHigh => Sys2Proof.Machine.execCharacterCompletion line bits parityBit stopHigh s
  | .idleTimerExpiry line => Sys2Proof.Machine.execIdleTimerExpiry line s
  | .classification line => Sys2Proof.Machine.execClassification line s
  | .trigInRisingEdge => Sys2Proof.Machine.execTrigInRisingEdge s
  | .trigInEdgeAccepted => Sys2Proof.Machine.execTrigInEdgeAccepted s
  | .holdoffExpiry entry => Sys2Proof.Machine.execHoldoffExpiry entry s
  | .postTimerExpiry slot => Sys2Proof.Machine.execPostTimerExpiry slot s
  | .hostByteReceived byte => Sys2Proof.Machine.execHostByteReceived byte s
  | .interByteTimeout => Sys2Proof.Machine.execInterByteTimeout s
  | .txFrameEnd => Sys2Proof.Machine.execTxFrameEnd s
  | .programUnitEnd cells => Sys2Proof.Machine.execProgramUnitEnd cells s
  | .programUnitTimeout cells => Sys2Proof.Machine.execProgramUnitTimeout cells s
  | .eraseEnd blank => Sys2Proof.Machine.execEraseEnd blank s
  | .eraseTimeout => Sys2Proof.Machine.execEraseTimeout s
  | .arrayReadDone => Sys2Proof.Machine.execArrayReadDone s
  | .scanFinish => Sys2Proof.Machine.execScanFinish s
  | .unknownRequest tag payload => Sys2Proof.Machine.execUnknownRequest tag payload s
  | .identify tag => Sys2Proof.Machine.execIdentify tag s
  | .getStatus tag => Sys2Proof.Machine.execGetStatus tag s
  | .setTime tag time => Sys2Proof.Machine.execSetTime tag time s
  | .setNoticeMask tag kinds lines => Sys2Proof.Machine.execSetNoticeMask tag kinds lines s
  | .clearFaults tag => Sys2Proof.Machine.execClearFaults tag s
  | .restart tag => Sys2Proof.Machine.execRestart tag s
  | .configureLine tag line cfg => Sys2Proof.Machine.execConfigureLine tag line cfg s
  | .startLine tag line pinHigh => Sys2Proof.Machine.execStartLine tag line pinHigh s
  | .stopLine tag line => Sys2Proof.Machine.execStopLine tag line s
  | .getLineCounts tag line clear => Sys2Proof.Machine.execGetLineCounts tag line clear s
  | .setPoolMark tag mark => Sys2Proof.Machine.execSetPoolMark tag mark s
  | .writeEntry tag entry body => Sys2Proof.Machine.execWriteEntry tag entry body s
  | .readEntry tag entry => Sys2Proof.Machine.execReadEntry tag entry s
  | .clearEntry tag entry => Sys2Proof.Machine.execClearEntry tag entry s
  | .forceTrigger tag entry => Sys2Proof.Machine.execForceTrigger tag entry s
  | .listIncidents tag => Sys2Proof.Machine.execListIncidents tag s
  | .closeIncident tag id => Sys2Proof.Machine.execCloseIncident tag id s
  | .cancelIncident tag id => Sys2Proof.Machine.execCancelIncident tag id s
  | .listFrames tag line list present after max => Sys2Proof.Machine.execListFrames tag line list present after max s
  | .readFrame tag line seq => Sys2Proof.Machine.execReadFrame tag line seq s
  | .takeFrames tag line count => Sys2Proof.Machine.execTakeFrames tag line count s
  | .releaseFrames tag line seq => Sys2Proof.Machine.execReleaseFrames tag line seq s
  | .getStoreStatus tag => Sys2Proof.Machine.execGetStoreStatus tag s
  | .setStorePolicy tag policy => Sys2Proof.Machine.execSetStorePolicy tag policy s
  | .setProtection tag sector level => Sys2Proof.Machine.execSetProtection tag sector level s
  | .eraseSector tag sector => Sys2Proof.Machine.execEraseSector tag sector s
  | .listRecords tag first filter max => Sys2Proof.Machine.execListRecords tag first filter max s
  | .readRecord tag serial first => Sys2Proof.Machine.execReadRecord tag serial first s
  | .verifyRecord tag serial => Sys2Proof.Machine.execVerifyRecord tag serial s
  | .discardRecord tag serial => Sys2Proof.Machine.execDiscardRecord tag serial s
  | .startBit line lowAtMid => Sys2Proof.Machine.execStartBit line lowAtMid s
  | .pinSampledHigh line => Sys2Proof.Machine.execPinSampledHigh line s

end Sys2Proof.Machine
end

