-- ==== Sys2Proof/Machine/Step.lean ====
section
/-! DEFINITION. One step: the command at the front of the queue, or, when none waits, the passing of time. -/

namespace Sys2Proof.Machine

/-- The command at the front of the queue is executed on the state with the queue's rest; on an empty queue time
passes (log 2). -/
def step (s : State) : Host.Outcome State Fault Refusal :=
  match s.pending with
  | [] => .next s.idleTick
  | c :: rest => exec c { s with pending := rest }

/-- The command that a word spells by the table's bits, put at the front of the queue; no row gives bits, so no
word spells one and the state is unchanged (log 31). -/
def State.withFetchWord (s : State) (nbits w : Nat) : State :=
  match decodeTableWord nbits w with
  | some c => { s with pending := c :: s.pending }
  | none => s

end Sys2Proof.Machine
end

