-- ==== Sys2Proof/Safety.lean ====
section
/-! DEFINITION. What counts as a safe run, and the invariants of the model in the terms claims use. -/

namespace Sys2Proof.Machine

/-- A state from which every run goes on: no number of steps ends in a fault or a refusal. -/
def Safe (s : State) : Prop := ∀ n, ∃ t, Sys2Proof.core.run n s = .next t

/-- Every memory is in canonical form: capture memory, and the contents of each sector. -/
def State.memoriesCanonical (s : State) : Bool :=
  s.capture.mem.wf && allSectors.all fun x => s.store.sectors[x].mem.wf

/-- The queues stay within their limits: 4 requests (R178), 16 notices (R182), 8 host work items (R109). -/
def State.queuesBounded (s : State) : Prop :=
  s.link.requests.length ≤ 4 ∧ s.link.notices.length ≤ 16 ∧ s.store.work.length ≤ 8

/-- STARTED and NOTICES_LOST are members of the kind mask (R196). -/
def State.masksKept (s : State) : Prop := inSet s.link.kindMask 1 = true ∧ inSet s.link.kindMask 14 = true

/-- The host link is consistent: a full reply slot only while the transmitter sends (R184) and the handler does not
take requests (R181); no request waits at an IDLE handler (R179). -/
def Link.consistent (l : Link) : Prop :=
  (l.slot ≠ none → l.tx ≠ none ∧ (l.handler = .replyHeld ∨ l.handler = .halted))
    ∧ (l.handler = .idle → l.requests = []) ∧ (l.handler = .replyHeld → l.slot ≠ none)
    ∧ (l.notices ≠ [] → l.tx ≠ none)

/-- Every page is on the free page list or in the chain of exactly one frame slot (R25), and the slots are listed by
rising number. -/
def State.pagesConserved (s : State) : Prop :=
  (s.capture.free ++ s.capture.slots.flatMap fun c => c.2.pages).Perm (List.range 1024)
    ∧ risingKeys s.capture.slots = true

/-! ### Frames: where they stand, and who pins them -/

/-- A slot holds a frame of a line, at a place. -/
def Capture.holdsAt (c : Capture) (p : Place) (i : Fin 8) (id : Nat) : Bool :=
  (c.frame? id).any fun f => f.place == p && f.line == i

/-- The slots that a line names: its history, its handed-out list, the frames awaiting classification, and the frame in
reception. -/
def State.namedSlots (s : State) (i : Fin 8) : List Nat :=
  s.capture.hist[i] ++ s.capture.handed[i] ++ s.lines[i].awaiting
    ++ (s.lines[i].current.bind fun f => f.slot).toList

/-- Each slot is named once at most, and holds a frame of the line that names it, its place the one that the naming
list gives it (spec/02, Frame slots). -/
def State.framesPlaced (s : State) : Prop :=
  risingKeys s.capture.slots = true ∧ (allLines.flatMap s.namedSlots).Nodup
    ∧ ∀ i : Fin 8, (∀ id ∈ s.capture.hist[i], s.capture.holdsAt .inHistory i id = true)
      ∧ (∀ id ∈ s.capture.handed[i], s.capture.holdsAt .handedOut i id = true)
      ∧ ∀ id ∈ s.lines[i].awaiting ++ (s.lines[i].current.bind fun f => f.slot).toList,
          s.capture.holdsAt .inReception i id = true

/-- The number of incidents that hold a frame slot. -/
def Incidents.holders (u : Incidents) (id : Nat) : Nat :=
  (allSlots.filter fun k => (u.table[k]).any fun n => decide (id ∈ n.frames)).length

/-- The pin count of a frame is the number of incidents that hold it, each once (R36, R71); a DETACHED frame is pinned
(R28, R37), and a frame in reception is not. -/
def State.pinsAgree (s : State) : Prop :=
  (∀ k n, s.inc.table[(k : Fin 4)] = some n → n.frames.Nodup ∧ ∀ id ∈ n.frames, s.capture.frame? id ≠ none)
    ∧ ∀ id f, s.capture.frame? id = some f →
      f.pins = s.inc.holders id ∧ (f.place = .detached → f.pins ≠ 0) ∧ (f.place = .inReception → f.pins = 0)

/-! ### The array -/

/-- At most one sector is OPEN (R100), and none while a commit programs the header of the one it opens (R127). -/
def State.oneOpenSector (s : State) : Prop :=
  (∀ x y : Fin 64, s.store.sectors[x].state = .opened → s.store.sectors[y].state = .opened → x = y)
    ∧ (s.records.opening ≠ none → ∀ x : Fin 64, s.store.sectors[x].state ≠ .opened)

/-- The operation in progress agrees with its holder and its sector: an erase's sector is ERASING, an overwrite's runs
in the reservation of the commit (R125, R128), and no operation takes place in a protected sector (R100, R101, R111). -/
def State.opGuarded (s : State) : Prop :=
  match s.store.op with
  | none => True
  | some (.erase e) =>
    s.store.sectors[e.sector].state = .erasing ∧ s.store.sectors[e.sector].protection = .unlocked
      ∧ (s.store.holder = some .commit ↔ e.cause = .overwrite)
      ∧ (e.cause = .overwrite → ∀ c, s.records.commit = some c → c.phase = .reservation none)
  | some (.program p) =>
    s.store.sectors[p.sector].protection = .unlocked
      ∧ (if p.cause = .commit then s.store.holder = some .commit ∧ s.commitSector p.sector = true
         else s.store.holder = some .hostItem)

/-- The commit in progress holds the array and has its incident in the table; it waits for a read only without an
operation (R102), and programs the header of the sector it opens, or a record in the OPEN sector (R101, R127,
R132). -/
def State.commitGuarded (s : State) : Prop :=
  match s.records.commit with
  | none => True
  | some c =>
    s.store.holder = some .commit ∧ (∀ k, c.incident = some k → s.inc.table[k] ≠ none)
      ∧ (c.waiting = true → s.store.op = none) ∧
      match c.phase with
      | .reservation none => True
      | .reservation (some (x, _)) => ∃ p, s.store.op = some (.program p) ∧ p.sector = x ∧ p.cause = .commit
      | .programming p => s.store.sectors[p.sector].state = .opened

/-- No erase and no programming takes place in a protected sector (R100, R111), with what makes it so: OPEN sectors,
sectors with erase pending and sectors named by host work are UNLOCKED, and nothing runs while the store scans
(R114). -/
def State.arrayGuarded (s : State) : Prop :=
  (∀ x : Fin 64, s.store.sectors[x].state = .opened ∨ s.store.sectors[x].pending = true →
      s.store.sectors[x].protection = .unlocked)
    ∧ (∀ i ∈ s.store.work, s.store.sectors[i.sector].protection = .unlocked)
    ∧ s.opGuarded ∧ s.commitGuarded
    ∧ (s.store.state = .scanning → s.store.op = none ∧ s.store.holder = none ∧ s.store.work = []
        ∧ s.records.commit = none)

/-! ### What a command does, in the terms of statements -/

/-- The command answers a next state with a property. -/
def Completes (i : Instr) (s : State) (post : State → Prop) : Prop := ∃ t, exec i s = .next t ∧ post t

/-- A request row's request is in hand: the handler executes it and waits for no read (R179). -/
def State.Executing (s : State) (i : Instr) : Prop := s.inHand (reqOf i)

/-- The link but for its reply slot, transmitter, handler and request queue: nothing of the rest has changed. -/
def Link.quiet (a b : Link) : Prop :=
  b = { a with slot := b.slot, tx := b.tx, handler := b.handler, requests := b.requests }

/-- The reply to a request row. -/
def replyOf (i : Instr) (r : Result) (data : List Byte) : Reply :=
  { tag := (reqOf i).tag, code := (reqOf i).payload.headD 0, result := r, data := data }

/-- A request row is answered, and its event queues no notice: an idle transmitter begins the reply; otherwise the
reply waits in the slot and the handler is in REPLY_HELD (R180, R181, R184). Nothing else of the link changes. -/
def State.Answered (s t : State) (i : Instr) (r : Result) (data : List Byte) : Prop :=
  Link.quiet s.link t.link ∧
    ((s.link.tx = none ∧ t.link.tx = some (.reply (replyOf i r data))) ∨
      (s.link.tx ≠ none ∧ t.link.tx = s.link.tx ∧ t.link.slot = some (replyOf i r data)
        ∧ t.link.handler = .replyHeld))

/-- A request row is answered at an event that may queue notices: the reply is being sent, or is in the slot. -/
def State.Carries (t : State) (i : Instr) (r : Result) (data : List Byte) : Prop :=
  t.link.tx = some (.reply (replyOf i r data)) ∨ t.link.slot = some (replyOf i r data)

/-- Only the link and the model's free-value counter may differ. -/
def State.OnlyLink (s t : State) : Prop := t = { s with link := t.link, freeKey := t.freeKey }

/-- What an event of the link alone keeps: settings, hunter and counters. -/
def Link.keeps (a b : Link) : Prop :=
  b.straps = a.straps ∧ b.hunter = a.hunter ∧ b.lastByteAt = a.lastByteAt ∧ b.counters = a.counters
    ∧ b.kindMask = a.kindMask ∧ b.lineMask = a.lineMask

/-! ### Frames in reception, in the terms of statements -/

/-- A line once a character has been taken and before its byte goes anywhere (R1 to R3). -/
def Line.charDone (l : Line) (now : Stamp) (errored stopHigh : Bool) : Line :=
  { l with
    inCharacter := false
    awaitHigh := !stopHigh
    idle := if stopHigh then some ⟨now, if l.cfg.twoStops then 3 else 1⟩ else none
    counters := { l.counters with charErrors := if errored then l.counters.charErrors + 1 else l.counters.charErrors } }

/-- A frame as its line completes it (R12 to R14). -/
def Frame.ended (f : Frame) (l : Line) (cur : CurrentFrame) (last : Stamp) (cut broken : Bool) (bytes : List Byte) :
    Frame :=
  { f with
    seq := l.nextSeq, start := cur.startTime, duration := (last - cur.firstAt).setWidth 32
    check := (checkFrame l.cfg.check bytes).1
    flags := ⟨cur.charErr, cut, broken, (checkFrame l.cfg.check bytes).2⟩ }

/-- A line that has handed a completed frame on to the match unit (R14, R15), in a reception state. -/
def Line.handedOn (l : Line) (id : Nat) (g : Frame) (r : Reception) (left : Option Nat) : Line :=
  { l with
    reception := r, current := none, escape := false, discardLeft := left
    nextSeq := l.nextSeq + 1, awaiting := l.awaiting ++ [id]
    counters := { l.counters with
      bad := if isBad g.check g.flags then l.counters.bad + 1 else l.counters.bad
      cut := if g.flags.cut then l.counters.cut + 1 else l.counters.cut } }

/-- A line looks for characters outside STOPPING, with at most so many frames awaiting classification (R1, R55). -/
def State.Sampling (s : State) (i : Fin 8) (most : Nat) : Prop :=
  (s.lines[i].state = .active ∨ s.lines[i].state = .suspended ∨ s.lines[i].state = .shed)
    ∧ s.lines[i].awaitHigh = false ∧ s.lines[i].awaiting.length ≤ most

/-- A line of a mode has a frame in reception, and room to hand it on (R55). -/
def State.InFrame (s : State) (i : Fin 8) (mode : FramingMode) (cur : CurrentFrame) : Prop :=
  s.Sampling i 1 ∧ s.lines[i].cfg.mode = mode ∧ s.lines[i].reception = .receiving ∧ s.lines[i].current = some cur

/-- The same, of a stored frame that has its slot. -/
def State.Receiving (s : State) (i : Fin 8) (mode : FramingMode) (cur : CurrentFrame) (id : Nat) (f : Frame) : Prop :=
  s.InFrame i mode cur ∧ cur.taking = .stored ∧ cur.slot = some id ∧ s.capture.frame? id = some f

/-- The frame that begins on a line at a moment, taken as the line's state says (R5, R13). -/
def Line.fresh (l : Line) (t : Timebase) : CurrentFrame :=
  let taking : Taking :=
    match l.state with
    | .suspended => .followedLost
    | .shed => .followedShed
    | _ => .stored
  { taking := taking, slot := none, count := 0, charErr := false, startTime := t.tod, firstAt := t.elapsed,
    lastAt := t.elapsed, storedAt := t.elapsed, total := none }

/-- A line on which a frame has begun (R5). -/
def Line.begun (l : Line) (t : Timebase) : Line :=
  { l with reception := .receiving, escape := false, discardLeft := none, current := some (l.fresh t) }

/-- The frame that a character of a GAP or COUNTED line belongs to: the one in reception, or the one that it begins in
HUNT (R7, R10). -/
def State.frameFor (s : State) (i : Fin 8) : Option CurrentFrame :=
  match s.lines[i].reception with
  | .hunt => some (s.lines[i].fresh s.time)
  | .receiving => s.lines[i].current
  | .discarding => none

/-- A line inside a frame, begun at this character when the line was in HUNT. -/
def Line.inside (l : Line) (cur : CurrentFrame) : Line :=
  { l with
    reception := .receiving, current := some cur
    escape := if l.reception = .hunt then false else l.escape
    discardLeft := if l.reception = .hunt then none else l.discardLeft }

/-- A line whose frame in reception ends and is not handed on: a followed frame with a byte is counted (R5), a stored
one without a byte is no frame (R9). -/
def Line.unheld (l : Line) (cur : CurrentFrame) : Line :=
  { l with
    reception := .hunt, current := none, escape := false, discardLeft := none
    counters := { l.counters with
      lost := if cur.taking = .followedLost ∧ cur.count ≠ 0 then l.counters.lost + 1 else l.counters.lost
      shed := if cur.taking = .followedShed ∧ cur.count ≠ 0 then l.counters.shed + 1 else l.counters.shed } }

/-- A frame in reception after a character whose byte is one of its own, in a slot when it is stored. -/
def CurrentFrame.more (cur : CurrentFrame) (now : Stamp) (slot : Option Nat) (errored : Bool) : CurrentFrame :=
  { cur with
    slot := slot, count := cur.count + 1, charErr := cur.charErr || errored, lastAt := now, storedAt := now }

/-- Capture memory after one more byte of a frame, in the last page it holds (R27). -/
def Capture.stored (c : Capture) (id : Nat) (f : Frame) (b : Byte) : Capture :=
  { c with
    slots := insertKey id { f with length := f.length + 1 } c.slots
    mem := c.mem.write (f.pages.getD (f.length / 64) 0 * 64 + f.length % 64) b }

/-- The slot that the next byte of a frame on a line goes to, and capture memory with it: the lowest FREE slot with the
head page for the first byte (R26), one more page from the head at a page's end, the last page otherwise (R27). None
when no page is free, or the claim changes pool pressure. -/
def State.byteGoes (s : State) (i : Fin 8) (slot : Option Nat) (b : Byte) : Option (Nat × Capture) :=
  let c := s.capture
  let claim := fun (id : Nat) (f : Nat → Frame) =>
    match c.free with
    | page :: rest =>
      if pressureAfter c.pressure rest.length c.lowMark = c.pressure then
        some (id, { c with free := rest, slots := insertKey id (f page) c.slots, mem := c.mem.write (page * 64) b })
      else none
    | [] => none
  match slot with
  | none => claim (lowestFree 0 c.slots) (Frame.begun i)
  | some id =>
    match c.frame? id with
    | none => none
    | some f =>
      if f.length % 64 = 0 then claim id fun page => { f with length := f.length + 1, pages := f.pages ++ [page] }
      else some (id, c.stored id f b)

/-- A line at an evaluation of pool pressure: at its going ON a sheddable ACTIVE one is SHED, at its going OFF a SHED one
is ACTIVE (R18, R44). -/
def Line.pressed (l : Line) (before on : Bool) : Line :=
  if on = before then l
  else if on = true ∧ l.state = .active ∧ l.cfg.sheddable = true then { l with state := .shed, attention := true }
  else if on = false ∧ l.state = .shed then { l with state := .active }
  else l

/-- The notices of that evaluation: none without a change; LINE_STATE of the lines that change and that the line mask
lets pass, by line, then POOL_PRESSURE (R44, R196). -/
def State.pressureNotices (s t : State) : List Notice :=
  if t.capture.pressure = s.capture.pressure then []
  else
    ((allLines.filter fun i => s.lines[i].state != t.lines[i].state && s.link.lineMask.getLsbD i.val).map fun i =>
      .lineState i t.lines[i].state s.lines[i].state t.lines[i].attention)
    ++ [.poolPressure t.capture.pressure t.capture.free.length t.capture.lowMark]

/-! ### The pre-window, in the terms of statements -/

/-- A frame stands before another in the order of frame lists (R76): by start time, by line, and on one line as its lists
and the frames awaiting classification have them. -/
def State.precedes (s : State) (a b : Nat) : Prop :=
  ∃ f g, s.capture.frame? a = some f ∧ s.capture.frame? b = some g ∧
    (f.start < g.start ∨ (f.start = g.start ∧
      (f.line < g.line ∨ (f.line = g.line ∧
        [a, b].Sublist (s.capture.handed[f.line] ++ s.capture.hist[f.line] ++ s.lines[f.line].awaiting)))))

/-- The candidates of an incident's pre-window: of each line of the capture set the pre count most recent frames of its
lists, of a line other than the trigger's only those that stand before the trigger frame (R74, R75). -/
def State.preCandidates (s : State) (n : Incident) : List Nat :=
  (allLines.filter fun i => n.captureSet.getLsbD i.val).flatMap fun i =>
    let before := fun (j : Fin 8) (id : Nat) => (s.capture.frame? id).any fun f =>
      decide (f.start < n.triggerTime ∨ (f.start = n.triggerTime ∧ i < j))
    let both := s.capture.handed[i] ++ s.capture.hist[i]
    let seen :=
      match n.trigger with
      | some (j, _) => if j = i then both else both.filter (before j)
      | none => both
    seen.drop (seen.length - n.preCount)

/-- What a frame costs of the byte budget (R77). -/
def State.costOf (s : State) (id : Nat) : Nat :=
  24 + (((s.capture.frame? id).map fun f => f.length).getD 0 + 3) / 4 * 4

/-- An incident holds what its opening attaches (R74 to R77): of the candidates in order the newest that the budget takes,
with PRE_TRIMMED when some are left, and the trigger frame, if any. -/
def State.Holds (s : State) (n : Incident) (trigger : Option Nat) : Prop :=
  ∃ left taken, (left ++ taken).Perm (s.preCandidates n) ∧ (left ++ taken).Pairwise s.precedes
    ∧ n.frames.Perm (taken ++ trigger.toList) ∧ n.frames.Pairwise s.precedes
    ∧ n.budget = (n.frames.map s.costOf).sum ∧ (n.preTrimmed = true ↔ left ≠ [])
    ∧ (taken ≠ [] → n.budget ≤ 32624) ∧ ∀ x, left.getLast? = some x → 32624 < n.budget + s.costOf x

/-- An incident just opened for a source by an entry (R72, R73): its id, a copy of the template, what it holds. -/
def State.Opened (s : State) (n : Incident) (e : Fin 16) (source : Source) (trigger : Option (Fin 8 × Half))
    (frame : Option Nat) (time now : Stamp) : Prop :=
  let b := s.matcher.entries[e].body
  let closed := b.postCount = 0 ∧ b.postTime = 0
  n.id = freshId s.inc.ids 4 s.inc.idCounter ∧ n.source = source ∧ n.entry = e ∧ n.trigger = trigger
    ∧ n.triggerTime = time ∧ n.captureSet = b.captureSet ∧ n.preCount = b.preCount.toNat
    ∧ n.postCount = b.postCount.toNat ∧ n.postTime = b.postTime.toNat ∧ n.postFrames = 0 ∧ n.retried = false
    ∧ n.cancelPending = false ∧ n.serial = none ∧ s.Holds n frame
    ∧ n.state = (if closed then .queued else .collecting) ∧ n.closeReason = (if closed then some .count else none)
    ∧ n.postTimer = (if b.postTime = 0 then none else some (now + BitVec.ofNat 48 (b.postTime.toNat * 1000)))

/-- The notices of such an opening (R84, R95). -/
def Incident.openingNotices (n : Incident) : List Notice :=
  .incidentOpened n.id n.source n.entry n.trigger n.triggerTime n.captureSet n.frames.length n.budget n.preTrimmed
    :: if n.closeReason = some .count then
        [.incidentClosed n.id .count n.frames.length n.budget n.postFrames n.preTrimmed n.retried]
      else []

/-- The notices that have joined the queue since a state, at the time of day that now stands, whatever their numbers
(R182). -/
def State.joined (s t : State) : List Notice :=
  ((t.link.notices.drop s.link.notices.length).filter fun q => q.time == t.time.tod).map fun q => q.notice

/-! ### Replies, in the terms of statements -/

/-- A frame descriptor (R151, R190). -/
def Frame.described (f : Frame) : List Byte :=
  u8 f.line.val ++ encLE 2 f.seq ++ [f.place.code] ++ encLE 6 f.start ++ encLE 4 f.duration ++ u16 f.length
    ++ [f.check.code, f.flags.code] ++ encLE 2 f.matchSet ++ u8 f.pins

/-- An index entry (R162, R190). -/
def IndexEntry.described (e : IndexEntry) : List Byte :=
  encLE 4 e.serial ++ u8 e.sector.val ++ u16 e.offset ++ u16 e.length ++ encLE 2 e.id
    ++ [e.source, e.entry, e.triggerLine] ++ encLE 6 e.triggerTime ++ u16 e.frameCount
    ++ [(if e.preTrimmed then 1 else 0) + (if e.retried then 2 else 0) + (if e.closedFull then 4 else 0)]

/-- A sector description (R116, R190); while SCANNING all but the protection is zero. -/
def Sector.described (scanning : Bool) (v : Sector) : List Byte :=
  if scanning then [0, v.protection.code, 0, 0, 0, 0, 0, 0, 0, 0, 0, 0, 0]
  else [v.state.code, v.protection.code, boolByte v.pending] ++ encLE 4 (v.seq.getD 0xFFFFFFFF#32)
    ++ u16 (v.fillOffset.getD 0) ++ u16 v.live ++ u16 v.dead

/-- The operation in progress in the summary: kind, sector, cause, suspended (R190). -/
def ArrayOp.described : Option ArrayOp → List Byte
  | none => [0, 0xFF, 0xFF, 0]
  | some (.erase e) => [1] ++ u8 e.sector.val ++ [e.cause.code, boolByte (e.since == none)]
  | some (.program p) => [2] ++ u8 p.sector.val ++ [p.cause.code, 0]

/-- A host work item: kind and sector (R190). -/
def WorkItem.described : WorkItem → List Byte
  | .erase x => [0] ++ u8 x.val
  | .mark _ x _ => [1] ++ u8 x.val

/-- The 26-byte summary of GET_STORE_STATUS (R116, R190). -/
def State.summary (s : State) : List Byte :=
  let scanning := s.store.state == .scanning
  let counts := fun v => u8 ((allSectors.filter fun x => s.store.sectors[x].state == v).length)
  [s.store.state.code, s.store.policy.code, s.store.faults.code, fullCode s.records.full]
    ++ (if scanning then List.replicate 16 0
        else u16 s.records.index.length ++ encLE 4 s.records.nextSerial ++ encLE 4 s.store.nextSeq ++ counts .erased
          ++ counts .opened ++ counts .full ++ counts .dirty ++ counts .erasing ++ counts .retired)
    ++ [if s.store.holder = none then 0 else if s.store.holder = some .commit then 1
        else if s.store.holder = some .hostItem then 2 else 3]
    ++ ArrayOp.described s.store.op ++ u8 s.store.work.length

/-- The two bytes at an offset as a number, low byte first. -/
def numberAt (bytes : List Byte) (k : Nat) : Nat := (byteAt bytes k).toNat + 256 * (byteAt bytes (k + 1)).toNat

/-- The offset of frame entry `j` of a record (R165). -/
def entryOffset (bytes : List Byte) : Nat → Nat
  | 0 => 64
  | j + 1 =>
    let at_ := entryOffset bytes j
    at_ + 24 + (numberAt bytes (at_ + 6) + 3) / 4 * 4

/-- The stored length of frame entry `j`. -/
def entryLength (bytes : List Byte) (j : Nat) : Nat := numberAt bytes (entryOffset bytes j + 6)

/-- Frame entry `j` of an indexed record is sound (R165). -/
def IndexEntry.soundAt (e : IndexEntry) (bytes : List Byte) (j : Nat) : Prop :=
  1 ≤ entryLength bytes j ∧ entryLength bytes j ≤ 1024 ∧ entryOffset bytes (j + 1) ≤ e.length - 16

/-- The entry walk passes so many entries of an indexed record, and breaks there when there are more (R165). -/
def IndexEntry.walks (e : IndexEntry) (bytes : List Byte) (sound : Nat) : Prop :=
  sound ≤ e.frameCount ∧ (∀ j < sound, e.soundAt bytes j) ∧ (sound < e.frameCount → ¬ e.soundAt bytes sound)

/-- What `n` reported entries from one on take of a reply (R166). -/
def reportedSize (bytes : List Byte) (first n : Nat) : Nat :=
  ((List.range n).map fun j => 24 + entryLength bytes (first + j)).sum

/-- Reported frame entry `j` of a record (R166, R190). -/
def reported (bytes : List Byte) (j : Nat) : List Byte :=
  let at_ := entryOffset bytes j
  let len := entryLength bytes j
  let field := fun k n => (bytes.drop (at_ + k)).take n
  u16 j ++ u16 at_ ++ field 0 3 ++ u8 ((len + 3) / 4 * 4 - len) ++ field 4 2 ++ u16 len ++ field 8 2 ++ field 10 4
    ++ field 14 6 ++ field 24 len

/-- The reply data of READ_RECORD, of a record's bytes (R166, R190). -/
def IndexEntry.readReplied (e : IndexEntry) (first : Nat) (bytes data : List Byte) : Prop :=
  ∃ sound carried, e.walks bytes sound ∧ (sound ≤ first → carried = 0) ∧ (first < sound → first + carried ≤ sound)
    ∧ reportedSize bytes first carried ≤ 1150
    ∧ (first + carried < sound → 1150 < reportedSize bytes first (carried + 1))
    ∧ (let next := first + carried
       let broken := sound < e.frameCount ∧ sound ≤ next
       data = e.described ++ u16 first ++ u8 carried ++ u16 next ++ u16 (e.frameCount - next)
         ++ (if broken then [1] ++ u16 sound else [0, 0xFF, 0xFF])
         ++ (List.range carried).flatMap fun j => reported bytes (first + j))

/-- The reply data of VERIFY_RECORD, of a record's bytes (R168, R169); the index of a walk whose end alone is wrong is
open (log 23). -/
def IndexEntry.verifyReplied (e : IndexEntry) (bytes data : List Byte) : Prop :=
  ∃ (sound : Nat) (index : Half), e.walks bytes sound
    ∧ (let marker := bytes.drop (e.length - 16)
       let computed := crc16 ((bytes.take 64).set 4 0xFF ++ (bytes.drop 64).take (e.length - 80))
       let header := bytes.take 4 = encLE 4 0x5AA5C33C#32
         ∧ crcAt (bytes.take 64) 30
           = crc16 (bytes.take 4 ++ ((bytes.take 64).drop 5).take 25 ++ ((bytes.take 64).drop 32).take 32)
       let record := marker.take 4 = encLE 4 0xC35A3CA5#32 ∧ (marker.drop 4).take 4 = encLE 4 e.serial
         ∧ (marker.drop 8).take 2 = u16 e.length ∧ crcAt marker 10 = computed
       let state := byteAt bytes 4
       data = e.described ++ [if header then 1 else 2, if record then 1 else 2] ++ crcBytes (crcAt marker 10)
         ++ crcBytes computed
         ++ (if sound < e.frameCount then [1] ++ u16 sound
             else if entryOffset bytes e.frameCount = e.length - 16 then [0, 0xFF, 0xFF]
             else [1] ++ encLE 2 index)
         ++ [if state &&& 0x30 = 0 then 2 else if state &&& 0x40 = 0 then 1 else 0])

/-! ### Erases and program units, in the terms of statements -/

/-- The store after a grant whose work begins an erase: the holder, the erase active from the moment on, its sector
ERASING and no host work for it (R101, R104, R139). -/
def Store.erases (st : Store) (h : Holder) (x : Fin 64) (cause : Cause) (now : Stamp) : Store :=
  { st with
    holder := some h, op := some (.erase ⟨x, cause, 0, some now⟩)
    work := st.work.filter fun i => i.sector != x
    sectors := st.sectors.set x { st.sectors[x] with
      state := .erasing, pending := false, fillOffset := none, live := 0, eraseComplete := false } }

/-- The sector background reclaim erases next when no host work waits: the lowest with erase pending (R107). -/
def Store.reclaims (st : Store) (x : Fin 64) : Prop :=
  st.sectors[x].pending = true ∧ ∀ y : Fin 64, y < x → st.sectors[y].pending = false

/-- The arbiter leaves the array to background reclaim, without host work (R107). -/
def Store.leftToReclaim (st t : Store) (now : Stamp) : Prop :=
  (∀ x, st.reclaims x → t = st.erases .background x .reclaim now)
    ∧ ((∀ x : Fin 64, st.sectors[x].pending = false) → t = st)

/-- The unit in progress would pass its verify if its cells took these values (R97, R98). -/
def State.UnitPasses (s : State) (p : ProgramOp) (cells : List Byte) : Prop :=
  drivenBytes (s.formerBytes p) p.bytes cells = intendedBytes (s.formerBytes p) p.bytes

/-- A program unit of the commit in its programming phase is in progress for the incident in a slot (R132). -/
def State.Programs (s : State) (p : ProgramOp) (c : Commit) (g : Programming) (k : Fin 4) (n : Incident) : Prop :=
  s.store.op = some (.program p) ∧ p.cause = .commit ∧ s.store.holder = some .commit ∧ s.records.commit = some c
    ∧ c.incident = some k ∧ c.phase = .programming g ∧ s.inc.table[k] = some n

/-- A program unit on its way ends, by PROGRAM_UNIT_END within its time or by PROGRAM_UNIT_TIMEOUT, without passing. -/
def State.UnitFails (s : State) (p : ProgramOp) (row : Instr) : Prop :=
  (∃ cells, row = .programUnitEnd cells ∧ (s.time.elapsed - p.since).toNat ≤ 3000 ∧ ¬ s.UnitPasses p cells)
    ∨ ∃ cells, row = .programUnitTimeout cells

/-- A notice of an event that nothing keeps out of the queue: a frame is being sent, there is room, and the masks let
its kind pass (R182, R196). -/
def State.Queues (s : State) (room : Nat) (kinds : List Nat) : Prop :=
  s.link.tx ≠ none ∧ s.link.notices.length + room ≤ 16 ∧ ∀ k ∈ kinds, s.link.kindMask.getLsbD k = true

/-! ### What stays as it is, in the terms of statements -/

/-- The arbiter has nothing to grant: the array is not idle, or no work of any kind waits (R107). -/
def State.NothingToGrant (s : State) : Prop :=
  s.arrayIdle = false ∨ (s.store.work = [] ∧ s.inc.queue = [] ∧ s.store.toReclaim = none)

/-- The incident unit with EVT_OUT as R93 gives it. -/
def Incidents.evaluated (u : Incidents) : Incidents := { u with evtOut := decide (0 < collectingCount u) }

/-- What a grant of the array and the work it begins leave alone: lines, capture memory, match unit, clocks, the
model's counter and the queue of commands. -/
def State.SameOutsideStore (s t : State) : Prop :=
  t.lines = s.lines ∧ t.capture = s.capture ∧ t.matcher = s.matcher ∧ t.time = s.time ∧ t.freeKey = s.freeKey
    ∧ t.pending = s.pending

end Sys2Proof.Machine
end

