-- ==== Sys2Proof/WellFormed.lean ====
section
/-! DEFINITION. What a command must meet beyond its operands' types. -/

namespace Sys2Proof

/-- An UNKNOWN_REQUEST carries a payload that an envelope can hold (R173) and that the handler's first checks
refuse (R179); a program unit has 1 to 256 bytes (R97), so no more cells are told of. -/
def WellFormed : Instr → Bool
  | .unknownRequest _ p => decide (p.length ≤ Config.maxPayload) && !payloadKnown p
  | .programUnitEnd cells => decide (cells.length ≤ Config.blockSize)
  | .programUnitTimeout cells => decide (cells.length ≤ Config.blockSize)
  | .hardReset _ | .restartTakesEffect | .characterCompletion .. | .idleTimerExpiry _ | .classification _
  | .trigInRisingEdge | .trigInEdgeAccepted | .holdoffExpiry _ | .postTimerExpiry _ | .hostByteReceived _
  | .interByteTimeout | .txFrameEnd | .eraseEnd _ | .eraseTimeout
  | .arrayReadDone | .scanFinish | .startBit .. | .pinSampledHigh _
  | .identify .. | .getStatus .. | .setTime .. | .setNoticeMask .. | .clearFaults .. | .restart ..
  | .configureLine .. | .startLine .. | .stopLine .. | .getLineCounts .. | .setPoolMark ..
  | .writeEntry .. | .readEntry .. | .clearEntry .. | .forceTrigger .. | .listIncidents ..
  | .closeIncident .. | .cancelIncident .. | .listFrames .. | .readFrame .. | .takeFrames ..
  | .releaseFrames .. | .getStoreStatus .. | .setStorePolicy .. | .setProtection .. | .eraseSector ..
  | .listRecords .. | .readRecord .. | .verifyRecord .. | .discardRecord .. => true

end Sys2Proof
end

