-- ==== Sys2Proof/Certificates/Slice0/Obligations.lean ====
section
/-! DEFINITION. The statements for the provers. Each is about every state that meets its hypotheses; requests are
executed when they are in hand (`State.Executing`). -/

section
open Sys2Proof Sys2Proof.Machine

/-! ### Steps, the queue and invariants -/

/-- A step with a command at the front of the queue is that command on the state with the queue's rest. -/
def Obligations.StepRunsTheFrontCommand : Prop :=
  ∀ (c : Instr) (s : State) (rest : List Instr), s.pending = c :: rest →
    step s = exec c { s with pending := rest }

/-- With no command waiting, a step is one µs of both clocks, and a holdoff's expiry waits exactly when its end is
then reached (the model's choice, log 2). -/
def Obligations.EmptyQueueStepIsOneMicrosecond : Prop :=
  ∀ s : State, s.pending = [] → ∃ t, step s = .next t ∧
    t = { s with time := { s.time with tod := s.time.tod + 1, elapsed := s.time.elapsed + 1 },
                 pending := t.pending, freeKey := t.freeKey } ∧
    ∀ e : Fin 16, Instr.holdoffExpiry e ∈ t.pending ↔
      ∃ p, s.matcher.entries[e].holdoffEnd = some p ∧ reached (s.time.elapsed + 1) p = true

/-- Every command answers a next state and leaves the queue of waiting commands alone; so no run ends in a fault or a
refusal. -/
def Obligations.EveryCommandCompletes : Prop :=
  (∀ (c : Instr) (s : State), ∃ t, exec c s = .next t ∧ t.pending = s.pending) ∧ ∀ s : State, Safe s

/-- Every step keeps capture memory and the contents of every sector in canonical form. -/
def Obligations.EveryStepKeepsMemoriesCanonical : Prop :=
  ∀ s t : State, s.memoriesCanonical = true → step s = .next t → t.memoriesCanonical = true

/-- Every step keeps the queues within their limits, STARTED and NOTICES_LOST in the kind mask, and reply slot,
transmitter, handler and request queue consistent. -/
def Obligations.EveryStepKeepsTheQueuesInOrder : Prop :=
  ∀ s t : State, s.queuesBounded ∧ s.masksKept ∧ s.link.consistent → step s = .next t →
    t.queuesBounded ∧ t.masksKept ∧ t.link.consistent

/-- Every step keeps each frame slot in one list of its own line at most, with the place that list gives it. -/
def Obligations.EveryStepPlacesFramesOnce : Prop :=
  ∀ s t : State, s.framesPlaced → step s = .next t → t.framesPlaced

/-- No step loses a page of capture memory or puts it in two places. -/
def Obligations.EveryStepConservesPages : Prop :=
  ∀ s t : State, s.framesPlaced → s.pagesConserved → step s = .next t → t.pagesConserved

/-- Every step keeps the pin count of each frame the number of incidents that hold it. -/
def Obligations.EveryStepKeepsPinsAgreeing : Prop :=
  ∀ s t : State, s.framesPlaced → s.pinsAgree → step s = .next t → t.pinsAgree

/-- Every step of a guarded array keeps at most one sector OPEN. -/
def Obligations.EveryStepKeepsOneSectorOpen : Prop :=
  ∀ s t : State, s.arrayGuarded → s.oneOpenSector → step s = .next t → t.oneOpenSector

/-- Every step keeps erases and program units out of protected sectors. -/
def Obligations.EveryStepKeepsTheArrayGuarded : Prop :=
  ∀ s t : State, s.arrayGuarded → step s = .next t → t.arrayGuarded

/-- The invariants hold right after reset. -/
def Obligations.InvariantsHoldAtReset : Prop :=
  State.reset.memoriesCanonical = true ∧ State.reset.queuesBounded ∧ State.reset.masksKept
    ∧ State.reset.link.consistent ∧ State.reset.framesPlaced ∧ State.reset.pagesConserved ∧ State.reset.pinsAgree
    ∧ State.reset.oneOpenSector ∧ State.reset.arrayGuarded

/-! ### Resets -/

/-- HARD_RESET: clocks, cause and link rate; the scan begins; contents and erase status of every sector that no
operation is in progress in are kept. The zeros of the empty table while SCANNING are the model's choice (log 8). -/
def Obligations.HardResetSetsEveryBlock : Prop :=
  ∀ (straps : BitVec 2) (s : State), Completes (.hardReset straps) s fun t =>
    t.lines = State.reset.lines ∧ t.capture = { State.reset.capture with mem := t.capture.mem }
      ∧ t.matcher = State.reset.matcher ∧ t.inc = State.reset.inc ∧ t.records = State.reset.records
      ∧ t.time = ⟨0, 0, .hardReset⟩ ∧ t.link = Link.reset straps ∧ t.pending = s.pending
      ∧ t.store = { State.reset.store with sectors := t.store.sectors }
      ∧ ∀ x : Fin 64, t.store.sectors[x] = Sector.emptied t.store.sectors[x].mem t.store.sectors[x].eraseComplete .unlocked
        ∧ (s.store.op.all (fun o => o.sector != x) = true →
            t.store.sectors[x].mem = s.store.sectors[x].mem
              ∧ t.store.sectors[x].eraseComplete = s.store.sectors[x].eraseComplete)

/-- The end of the RESTART reply, by either row: as a hard reset, but protection, sticky faults, link rate, clocks and
page memory are kept. TX_FRAME_END at that end is the model's reading of R185 (log 28), the zeros while SCANNING its
choice (log 8). -/
def Obligations.RestartKeepsWhatTheHostChose : Prop :=
  ∀ (c : Instr) (s : State), c = .restartTakesEffect ∨ c = .txFrameEnd → s.link.restartSending = true →
    Completes c s fun t =>
      t.lines = State.reset.lines ∧ t.capture = { State.reset.capture with mem := s.capture.mem }
        ∧ t.matcher = State.reset.matcher ∧ t.inc = State.reset.inc ∧ t.records = State.reset.records
        ∧ t.time = { s.time with cause := .restart } ∧ t.link = Link.reset s.link.straps ∧ t.pending = s.pending
        ∧ t.store = Store.scanning t.store.sectors s.store.faults .restart
        ∧ ∀ x : Fin 64, t.store.sectors[x]
            = Sector.emptied t.store.sectors[x].mem t.store.sectors[x].eraseComplete s.store.sectors[x].protection
          ∧ (s.store.op.all (fun o => o.sector != x) = true →
              t.store.sectors[x].mem = s.store.sectors[x].mem
                ∧ t.store.sectors[x].eraseComplete = s.store.sectors[x].eraseComplete)

/-- R70: the match unit after either reset. -/
def Obligations.ResetsEmptyTheMatchUnit : Prop :=
  ∀ (straps : BitVec 2) (s t : State),
    (exec (.hardReset straps) s = .next t
      ∨ (s.link.restartSending = true ∧ exec .restartTakesEffect s = .next t)) →
    (∀ e : Fin 16, t.matcher.entries[e].body = ⟨0, 0, 0, 0, 0, 0, 0, 0, 0, 0, 0, 0, 0, 0, 0, 0, 0, 0, 0, 0, 0, 0, 0⟩
        ∧ t.matcher.entries[e].lastMatch = none ∧ t.matcher.entries[e].holdoffEnd = none
        ∧ t.matcher.entries[e].count = 0)
      ∧ t.matcher.missed = 0 ∧ t.matcher.lastAccepted = none
      ∧ (∀ i : Fin 8, t.lines[i].awaiting = []) ∧ t.link.notices = [] ∧ t.link.tx = none

/-- R24: the line receivers after either reset. -/
def Obligations.ResetsStopEveryLine : Prop :=
  ∀ (straps : BitVec 2) (s t : State) (i : Fin 8),
    (exec (.hardReset straps) s = .next t
      ∨ (s.link.restartSending = true ∧ exec .restartTakesEffect s = .next t)) →
    t.lines[i].state = .stopped ∧ t.lines[i].reception = .hunt ∧ t.lines[i].current = none
      ∧ t.lines[i].awaiting = [] ∧ t.lines[i].samples = false
      ∧ t.lines[i].cfg = { divisor := 104, sevenBits := false, parity := .noParity, twoStops := false, mode := .gap,
                           idleTime := 40, startByte := 0x02, endByte := 0x03, escapeByte := 0x10, lenOffset := 0,
                           addend := 0, check := .noCheck, maxLength := 256, keepBad := true, policy := .ring,
                           depth := 32, sheddable := true }
      ∧ t.lines[i].nextSeq = 0 ∧ t.lines[i].counters = ⟨0, 0, 0, 0, 0, 0, 0⟩ ∧ t.lines[i].attention = false
      ∧ t.capture.slots = [] ∧ t.capture.free = List.range 1024 ∧ t.link.notices = [] ∧ t.link.tx = none

/-! ### The host link -/

/-- A request envelope, received byte by byte in HUNT, offers its request. -/
def Obligations.RequestEnvelopeIsOffered : Prop :=
  ∀ (l : Link) (tag : Byte) (payload : List Byte), l.hunter = .hunt → payload.length ≤ 1200 →
    (envelope 0x01#8 tag payload).foldl Link.receive l = l.offer ⟨tag, payload⟩

/-- HOST_BYTE_RECEIVED in HUNT, inside a frame within 1 ms of the byte before, and later than that, where the timeout
comes first; INTER_BYTE_TIMEOUT inside a frame. The counters saturate. -/
def Obligations.HuntTakesOnlySyncAndTimeoutsDropFrames : Prop :=
  (∀ (s : State) (b : Byte), s.link.hunter = .hunt →
      exec (.hostByteReceived (some b)) s = .next { s with
          link := { s.link with lastByteAt := s.time.elapsed,
                                hunter := if b = 0xB5#8 then .header [] else .hunt } }
        ∧ exec (.hostByteReceived none) s = .next s)
  ∧ (∀ (s : State) (b : Byte), s.link.hunter ≠ .hunt → (s.time.elapsed - s.link.lastByteAt).toNat ≤ 1000 →
      exec (.hostByteReceived (some b)) s = .next { s with
          link := { s.link with lastByteAt := s.time.elapsed }.receive b }
        ∧ exec (.hostByteReceived none) s = .next { s with
            link := { s.link with
              hunter := .hunt
              counters := { s.link.counters with
                badEnvelope := if s.link.counters.badEnvelope < 65535 then s.link.counters.badEnvelope + 1
                               else s.link.counters.badEnvelope } } })
  ∧ (∀ (s : State) (byte : Option Byte), s.link.hunter ≠ .hunt → 1000 < (s.time.elapsed - s.link.lastByteAt).toNat →
      exec (.hostByteReceived byte) s = exec (.hostByteReceived byte) { s with
        link := { s.link with
          hunter := .hunt
          counters := { s.link.counters with
            timeout := if s.link.counters.timeout < 65535 then s.link.counters.timeout + 1
                       else s.link.counters.timeout } } })
  ∧ (∀ s : State, s.link.hunter ≠ .hunt → Completes .interByteTimeout s fun t =>
      t = { s with time := t.time, link := t.link }
        ∧ t.link = { s.link with
            hunter := .hunt
            counters := { s.link.counters with timeout := saturate s.link.counters.timeout } }
        ∧ t.time = s.time.advanceTo (s.link.lastByteAt + 1000))

/-- What the masks let pass; a notice while a frame is being sent: masked, joined with the next number, or lost.
TX_FRAME_END but for the RESTART reply: the reply in the slot, else the head notice, else idle; a removal reports the
lost notice record. -/
def Obligations.NoticesAreMaskedJoinedLostAndSent : Prop :=
  (∀ (l : Link) (n : Notice), l.passes n = true ↔
      (n.kind = 1 ∨ n.kind = 14 ∨ (l.kindMask.getLsbD n.kind = true
        ∧ (∀ i new old att, n = .lineState i new old att → l.lineMask.getLsbD i.val = true)
        ∧ ∀ i q h d v, n = .feedReady i q h d v → l.lineMask.getLsbD i.val = true)))
  ∧ (∀ (l : Link) (tod : Stamp) (n : Notice), l.tx ≠ none →
      (l.passes n = false → l.notify tod n = l)
        ∧ (l.passes n = true → l.notices.length < 16 → l.notify tod n
            = { l with notices := l.notices ++ [⟨l.number, tod, n⟩], number := l.number + 1 })
        ∧ (l.passes n = true → 16 ≤ l.notices.length → l.notify tod n = { l with
            lost := { count := if l.lost.count < 65535 then l.lost.count + 1 else l.lost.count,
                      kinds := l.lost.kinds ||| (1#16 <<< n.kind),
                      first := if l.lost.count = 0 then tod else l.lost.first } }))
  ∧ (∀ s : State, s.link.restartSending = false → s.link.tx ≠ none → Completes .txFrameEnd s fun t =>
      t = { s with link := t.link }
        ∧ (∀ r, s.link.slot = some r →
            t.link.tx = some (.reply r) ∧ t.link.slot = none ∧ t.link.notices = s.link.notices)
        ∧ (∀ n rest, s.link.slot = none → s.link.notices = n :: rest → t.link.tx = some (.notice n)
            ∧ (s.link.lost.count = 0 → t.link.notices = rest ∧ t.link.number = s.link.number)
            ∧ (s.link.lost.count ≠ 0 → t.link.lost = ⟨0, 0, 0⟩ ∧ t.link.number = s.link.number + 1
                ∧ t.link.notices = rest ++ [⟨s.link.number, s.time.tod,
                    .noticesLost s.link.lost.count s.link.lost.kinds s.link.lost.first⟩]))
        ∧ (s.link.slot = none → s.link.notices = [] → t.link = { s.link with tx := none }))

/-- Every request row is read back from its own payload, with every operand at every value. -/
def Obligations.RequestPayloadsRoundTrip : Prop :=
  ∀ (i : Instr) (q : Req), WellFormed i = true → i.request? = some q → decodeRequest i.pinLevel q = i

/-- A payload that is no request's is BAD_REQUEST; arguments out of their ranges are BAD_ARGUMENT, READ_RECORD and
VERIFY_RECORD of a serial that is not indexed NOT_FOUND, RELEASE_FRAMES on a RING line WRONG_STATE, the store requests
while SCANNING NOT_READY; nothing changes. -/
def Obligations.RefusedRequestsChangeNothing : Prop :=
  (∀ (tag : Byte) (p : List Byte) (s : State), payloadKnown p = false → s.Executing (.unknownRequest tag p) →
      Completes (.unknownRequest tag p) s fun t =>
        s.OnlyLink t ∧ s.Answered t (.unknownRequest tag p) .badRequest []
          ∧ (replyOf (.unknownRequest tag p) .badRequest []).code = p.headD 0)
  ∧ (∀ (i : Instr) (s : State), s.Executing i →
      ((∃ tag line pin, i = .startLine tag line pin ∧ 8 ≤ line.toNat)
        ∨ (∃ tag line, i = .stopLine tag line ∧ 8 ≤ line.toNat)
        ∨ (∃ tag line arg, i = .configureLine tag line arg ∧ 8 ≤ line.toNat)
        ∨ (∃ tag line count, i = .takeFrames tag line count ∧ (8 ≤ line.toNat ∨ count = 0 ∨ 32 < count.toNat))
        ∨ (∃ tag line seq, i = .releaseFrames tag line seq ∧ 8 ≤ line.toNat)
        ∨ (∃ tag entry, i = .forceTrigger tag entry ∧ 16 ≤ entry.toNat)
        ∨ (∃ tag policy, i = .setStorePolicy tag policy ∧ 2 ≤ policy.toNat)
        ∨ (∃ tag x level, i = .setProtection tag x level ∧ (64 ≤ x.toNat ∨ 3 ≤ level.toNat))
        ∨ (∃ tag x, i = .eraseSector tag x ∧ 64 ≤ x.toNat)) →
      Completes i s fun t => s.OnlyLink t ∧ s.Answered t i .badArgument [])
  ∧ (∀ (i : Instr) (serial : Word) (s : State), s.Executing i → s.store.state = .ready →
      s.records.entryOf serial = none →
      ((∃ tag first, i = .readRecord tag serial first) ∨ (∃ tag, i = .verifyRecord tag serial)) →
      Completes i s fun t => s.OnlyLink t ∧ s.Answered t i .notFound [])
  ∧ (∀ (tag line : Byte) (seq : Half) (i : Fin 8) (s : State), lineOf line = some i →
      s.Executing (.releaseFrames tag line seq) → s.lines[i].cfg.policy = .ring →
      Completes (.releaseFrames tag line seq) s fun t =>
        s.OnlyLink t ∧ s.Answered t (.releaseFrames tag line seq) .wrongState [])
  ∧ (∀ (i : Instr) (s : State), s.store.state = .scanning → s.Executing i →
      ((∃ tag p, i = .setStorePolicy tag p ∧ p.toNat ≤ 1)
        ∨ (∃ tag x l, i = .setProtection tag x l ∧ x.toNat < 64 ∧ l.toNat ≤ 2)
        ∨ (∃ tag x, i = .eraseSector tag x ∧ x.toNat < 64) ∨ (∃ tag n, i = .discardRecord tag n)
        ∨ (∃ tag n k, i = .readRecord tag n k) ∨ (∃ tag n, i = .verifyRecord tag n)
        ∨ (∃ tag f x m, i = .listRecords tag f x m ∧ (x.toNat < 64 ∨ x = 0xFF#8) ∧ 1 ≤ m.toNat ∧ m.toNat ≤ 40)) →
      Completes i s fun t => s.OnlyLink t ∧ s.Answered t i .notReady [])

/-! ### Time, status and notices -/

/-- IDENTIFY: the fixed values, the link rate and the last reset cause (field sizes: log 21). GET_STATUS: every field
in the order of its rule, read at one event. Neither changes anything. -/
def Obligations.IdentifyAndGetStatusReportThePart : Prop :=
  (∀ (tag : Byte) (s : State), s.Executing (.identify tag) → Completes (.identify tag) s fun t =>
      s.OnlyLink t ∧ s.Answered t (.identify tag) .ok
        [0x2A, 0x03, 1, s.link.straps.setWidth 8, 8, 0x00, 0x04, 64, 16, 4, 64, 0x00, 0x80, 0x00, 0x04, 8, 0xB0, 0x04,
          if s.time.cause = .hardReset then 0 else 1])
  ∧ (∀ (tag : Byte) (s : State), s.Executing (.getStatus tag) → Completes (.getStatus tag) s fun t =>
      s.OnlyLink t ∧ s.Answered t (.getStatus tag) .ok
        (encLE 6 s.time.tod ++ encLE 6 s.time.elapsed ++ [s.time.cause.code]
          ++ (allLines.map fun i => s.lines[i].state.code) ++ [s.attentionSet]
          ++ u16 s.capture.free.length ++ [boolByte s.capture.pressure] ++ u16 s.capture.lowMark
          ++ encLE 4 s.matcher.missed
          ++ u8 s.inc.ids.length ++ u8 (collectingCount s.inc) ++ u8 s.inc.queue.length ++ [boolByte s.inc.evtOut]
          ++ encLE 2 s.inc.idCounter
          ++ [s.store.state.code, s.store.faults.code, fullCode s.records.full]
          ++ (if s.store.state = .scanning then [0, 0, 0, 0, 0, 0]
              else u16 s.records.index.length ++ encLE 4 s.records.nextSerial)
          ++ u8 s.link.requests.length ++ u8 s.link.notices.length ++ u16 s.link.lost.count
          ++ u16 s.link.counters.badEnvelope ++ u16 s.link.counters.badCheck ++ u16 s.link.counters.timeout
          ++ u16 s.link.counters.refused ++ u16 s.link.counters.otherKind
          ++ encLE 2 s.link.kindMask ++ [s.link.lineMask]))

/-- R193: SET_TIME replaces the time of day, replies the old and the new value, and changes nothing else. -/
def Obligations.SetTimeMovesTheTimeOfDayAlone : Prop :=
  ∀ (tag : Byte) (time : Stamp) (s : State), s.Executing (.setTime tag time) →
    Completes (.setTime tag time) s fun t =>
      t = { s with time := { s.time with tod := time }, link := t.link, freeKey := t.freeKey }
        ∧ s.Answered t (.setTime tag time) .ok (encLE 6 s.time.tod ++ encLE 6 time)

/-- R197: SET_NOTICE_MASK. -/
def Obligations.SetNoticeMaskReplacesBothMasks : Prop :=
  ∀ (tag : Byte) (kinds : Half) (lines : Byte) (s : State), s.Executing (.setNoticeMask tag kinds lines) →
    Completes (.setNoticeMask tag kinds lines) s fun t =>
      s.OnlyLink t ∧
        (if kinds.getLsbD 0 = true ∨ kinds.getLsbD 15 = true then
          s.Answered t (.setNoticeMask tag kinds lines) .badArgument []
        else State.Answered { s with link := { s.link with kindMask := kinds ||| 0x4002#16, lineMask := lines } } t
          (.setNoticeMask tag kinds lines) .ok (encLE 2 (kinds ||| 0x4002#16) ++ [lines]))

/-- CLEAR_FAULTS clears the three sticky faults and replies them as they stood. -/
def Obligations.ClearFaultsClearsTheThreeFaults : Prop :=
  ∀ (tag : Byte) (s : State), s.Executing (.clearFaults tag) → Completes (.clearFaults tag) s fun t =>
    t = { s with store := { s.store with faults := ⟨false, false, false⟩ }, link := t.link, freeKey := t.freeKey }
      ∧ s.Answered t (.clearFaults tag) .ok [s.store.faults.code]

/-- RESTART is answered OK and halts the handler; nothing else changes until its reply has been sent. -/
def Obligations.RestartHaltsTheHandler : Prop :=
  ∀ (tag : Byte) (s : State), s.Executing (.restart tag) → Completes (.restart tag) s fun t =>
    s.OnlyLink t ∧ Link.quiet s.link t.link ∧ t.link.handler = .halted ∧ t.link.requests = s.link.requests
      ∧ (if s.link.tx = none then t.link.tx = some (.reply ⟨tag, 0x06, .ok, []⟩)
         else t.link.tx = s.link.tx ∧ t.link.slot = some ⟨tag, 0x06, .ok, []⟩)

/-! ### Tap lines -/

/-- START_BIT: the character proceeds and the idle interval ends, or the candidate is forgotten. PIN_SAMPLED_HIGH ends
the wait, and the idle interval begins. CHARACTER_COMPLETION outside a frame: an errored character counts, the idle
interval begins anew; a MARKED line in HUNT begins a frame at an error-free start byte (R9); a line in DISCARDING goes
by its mode (R7, R9, R10): GAP stays; MARKED begins a frame at a start byte, enters HUNT at an end byte and heeds
escapes; COUNTED counts down to HUNT what is known to remain. A frame is taken as the line's state says (R5).
IDLE_TIMER_EXPIRY outside a frame: DISCARDING enters HUNT. -/
def Obligations.CharactersOutsideAFrame : Prop :=
  (∀ (i : Fin 8) (s : State), s.lines[i].samples = true → s.lines[i].awaitHigh = false →
      s.lines[i].inCharacter = false →
      exec (.startBit i true) s = .next { s with
          lines := s.lines.set i { s.lines[i] with inCharacter := true, idle := none } }
        ∧ exec (.startBit i false) s = .next s)
  ∧ (∀ (i : Fin 8) (s : State), s.lines[i].samples = true → s.lines[i].awaitHigh = true →
      exec (.pinSampledHigh i) s = .next { s with
        lines := s.lines.set i { s.lines[i] with awaitHigh := false, idle := some ⟨s.time.elapsed, 0⟩ } })
  ∧ (∀ (i : Fin 8) (bits : Byte) (parityBit stopHigh : Bool) (s : State),
      let l := s.lines[i]
      let value := charValue l.cfg.sevenBits bits
      let errored := parityError l.cfg.parity value parityBit || !stopHigh
      s.Sampling i 2 → l.current = none →
      let a := l.charDone s.time.elapsed errored stopHigh
      let leaves := fun (m : Line) => exec (.characterCompletion i bits parityBit stopHigh) s = .next { s with
        inc := s.inc.evaluated, lines := s.lines.set i m }
      let marker := l.escape = false ∧ errored = false
      (l.cfg.mode = .gap → l.reception = .discarding → leaves a)
      ∧ (l.cfg.mode = .marked → l.reception = .hunt → ¬ (errored = false ∧ value = l.cfg.startByte) → leaves a)
      ∧ (l.cfg.mode = .marked → l.reception = .hunt → errored = false → value = l.cfg.startByte →
          leaves (a.begun s.time))
      ∧ (l.cfg.mode = .marked → l.reception = .discarding →
        (l.escape = true → leaves { a with escape := false })
        ∧ (marker → value = l.cfg.startByte → leaves (a.begun s.time))
        ∧ (marker → value ≠ l.cfg.startByte → value = l.cfg.endByte →
            leaves { a with reception := .hunt, discardLeft := none })
        ∧ (marker → value ≠ l.cfg.startByte → value ≠ l.cfg.endByte → value = l.cfg.escapeByte →
            leaves { a with escape := true })
        ∧ (l.escape = false → (errored = true ∨ (value ≠ l.cfg.startByte ∧ value ≠ l.cfg.endByte
            ∧ value ≠ l.cfg.escapeByte)) → leaves a))
      ∧ (l.cfg.mode = .counted → l.reception = .discarding →
        (l.discardLeft = none → leaves a)
        ∧ (∀ n, l.discardLeft = some n → n ≤ 1 → leaves { a with reception := .hunt, escape := false, discardLeft := none })
        ∧ (∀ n, l.discardLeft = some n → 2 ≤ n → leaves { a with discardLeft := some (n - 1) })))
  ∧ (∀ (i : Fin 8) (s : State) (v : IdleInterval),
      let l := s.lines[i]
      l.state = .active ∨ l.state = .suspended ∨ l.state = .shed → l.idle = some v → l.inCharacter = false →
      l.awaiting.length ≤ 2 → l.current = none →
      exec (.idleTimerExpiry i) s = .next { s with
        inc := s.inc.evaluated
        time := s.time.advanceTo (l.idlePoint v)
        lines := s.lines.set i
          (if l.reception = .discarding then
            { l with idle := none, reception := .hunt, escape := false, discardLeft := none }
           else { l with idle := none }) })

/-- CHARACTER_COMPLETION in a GAP frame, begun in HUNT or in reception (R5, R7): the byte of a stored frame below the
maximum frame length goes to its slot, its instants follow (R13, R26, R27; a slot's other fields, log 36); a byte of a
followed frame is counted alone; a byte beyond the maximum cuts the frame, and the receiver enters DISCARDING (R11).
IDLE_TIMER_EXPIRY inside a stored frame of any mode, into HUNT: the slot's fields, BROKEN but in GAP mode, the sequence
number, the bad counter and the hand-on to the match unit (R7, R8, R10, R12 to R14); inside a followed frame it is
counted (R5), and a stored one without a byte is no frame (R9). -/
def Obligations.GapFramesBeginAndIdleTimeEndsFrames : Prop :=
  (∀ (i : Fin 8) (bits : Byte) (parityBit stopHigh : Bool) (s : State) (cur : CurrentFrame),
    let l := s.lines[i]
    let value := charValue l.cfg.sevenBits bits
    let errored := parityError l.cfg.parity value parityBit || !stopHigh
    let a := l.charDone s.time.elapsed errored stopHigh
    s.Sampling i 2 → l.cfg.mode = .gap → s.frameFor i = some cur →
    (∀ id c, cur.taking = .stored → cur.count < l.cfg.maxLength → s.byteGoes i cur.slot value = some (id, c) →
      exec (.characterCompletion i bits parityBit stopHigh) s = .next { s with
        inc := s.inc.evaluated
        capture := c
        lines := s.lines.set i (a.inside (cur.more s.time.elapsed (some id) errored)) })
    ∧ (cur.taking ≠ .stored → exec (.characterCompletion i bits parityBit stopHigh) s = .next { s with
        inc := s.inc.evaluated
        lines := s.lines.set i (a.inside (cur.more s.time.elapsed none errored)) }))
  ∧ (∀ (i : Fin 8) (s : State) (v : IdleInterval) (cur : CurrentFrame) (id : Nat) (f : Frame),
    let l := s.lines[i]
    let g := f.ended l cur cur.lastAt false (l.cfg.mode != .gap) (s.capture.frameBytes f)
    l.state = .active ∨ l.state = .suspended ∨ l.state = .shed → l.idle = some v → l.inCharacter = false →
    l.awaiting.length ≤ 1 → l.reception = .receiving → l.current = some cur →
    cur.taking = .stored → cur.slot = some id → s.capture.frame? id = some f →
    Completes (.idleTimerExpiry i) s fun t =>
      t.capture = { s.capture with slots := insertKey id g s.capture.slots }
      ∧ t.lines = s.lines.set i (Line.handedOn { l with idle := none } id g .hunt none)
      ∧ t.time = s.time.advanceTo (l.idlePoint v)
      ∧ t.matcher = s.matcher ∧ t.store = s.store ∧ t.records = s.records ∧ t.link = s.link)
  ∧ (∀ (i : Fin 8) (s : State) (v : IdleInterval) (cur : CurrentFrame),
    let l := s.lines[i]
    l.state = .active ∨ l.state = .suspended ∨ l.state = .shed → l.idle = some v → l.inCharacter = false →
    l.awaiting.length ≤ 2 → l.reception = .receiving → l.current = some cur →
    (cur.taking = .stored → cur.slot = none) →
    exec (.idleTimerExpiry i) s = .next { s with
      inc := s.inc.evaluated
      time := s.time.advanceTo (l.idlePoint v)
      lines := s.lines.set i (Line.unheld { l with idle := none } cur) })
  ∧ (∀ (i : Fin 8) (bits : Byte) (parityBit stopHigh : Bool) (s : State) (cur : CurrentFrame) (id : Nat) (f : Frame),
    let l := s.lines[i]
    let errored := parityError l.cfg.parity (charValue l.cfg.sevenBits bits) parityBit || !stopHigh
    let g := f.ended l cur cur.storedAt true false (s.capture.frameBytes f)
    s.Receiving i .gap cur id f → l.cfg.maxLength ≤ cur.count →
    exec (.characterCompletion i bits parityBit stopHigh) s = .next { s with
      inc := s.inc.evaluated
      capture := { s.capture with slots := insertKey id g s.capture.slots }
      lines := s.lines.set i
        (Line.handedOn (l.charDone s.time.elapsed errored stopHigh) id g .discarding none) })

/-- CHARACTER_COMPLETION inside a MARKED frame (R8): an error-free end byte ends it, a start byte ends it BROKEN and
begins a new one as the line's state says (R5), an escape byte waits for the next byte; any other byte is one of the
frame, an escaped one with its bit 5 inverted, whatever its value, and an errored one as it is. A stored frame with a
byte is handed on, one without is no frame (R9), and a byte beyond the maximum cuts it (R11); of a followed frame the
bytes are counted, and the frame at its end (R5). -/
def Obligations.MarkedFramesFollowTheirMarkers : Prop :=
  ∀ (i : Fin 8) (bits : Byte) (parityBit stopHigh : Bool) (s : State) (cur : CurrentFrame),
    let l := s.lines[i]
    let value := charValue l.cfg.sevenBits bits
    let errored := parityError l.cfg.parity value parityBit || !stopHigh
    let now := s.time.elapsed
    let a := l.charDone now errored stopHigh
    let marker := l.escape = false ∧ errored = false
    let ends := marker ∧ value = l.cfg.endByte
    let restarts := marker ∧ value ≠ l.cfg.endByte ∧ value = l.cfg.startByte
    let escapes := marker ∧ value ≠ l.cfg.endByte ∧ value ≠ l.cfg.startByte ∧ value = l.cfg.escapeByte
    let data := ¬ (marker ∧ (value = l.cfg.endByte ∨ value = l.cfg.startByte ∨ value = l.cfg.escapeByte))
    let byte := if l.escape = true then value ^^^ 0x20#8 else value
    let leaves := fun (c : Capture) (m : Line) => exec (.characterCompletion i bits parityBit stopHigh) s = .next { s with
      inc := s.inc.evaluated, capture := c, lines := s.lines.set i m }
    s.InFrame i .marked cur →
    (∀ id f, cur.taking = .stored → cur.slot = some id → s.capture.frame? id = some f →
      let bytes := s.capture.frameBytes f
      let whole := f.ended l cur now false false bytes
      let broken := f.ended l cur cur.lastAt false true bytes
      let cut := f.ended l cur cur.storedAt true false bytes
      let holds := fun (g : Frame) => { s.capture with slots := insertKey id g s.capture.slots }
      (ends → leaves (holds whole) (Line.handedOn a id whole .hunt none))
      ∧ (restarts → leaves (holds broken) ((Line.handedOn a id broken .hunt none).begun s.time))
      ∧ (data → l.cfg.maxLength ≤ cur.count → leaves (holds cut) (Line.handedOn a id cut .discarding none)))
    ∧ ((cur.taking = .stored → cur.slot = none) →
      (ends → leaves s.capture (a.unheld cur)) ∧ (restarts → leaves s.capture ((a.unheld cur).begun s.time)))
    ∧ (escapes → leaves s.capture { a with escape := true, current := some { cur with lastAt := now } })
    ∧ (∀ id c, data → cur.taking = .stored → cur.count < l.cfg.maxLength → s.byteGoes i cur.slot byte = some (id, c) →
      leaves c { a with escape := false, current := some (cur.more now (some id) errored) })
    ∧ (data → cur.taking ≠ .stored →
      leaves s.capture { a with escape := false, current := some (cur.more now none errored) })

/-- CHARACTER_COMPLETION in a COUNTED frame, begun in HUNT or in reception (R5, R10, R11): the byte of a stored frame
goes to its slot; the byte at the length offset makes the total length known; a total at or before that offset ends
the frame BROKEN, the last byte ends it, the byte that fills a stored frame to the maximum cuts it with the rest to
pass (none left, where no run leads, is HUNT, log 14), and otherwise it goes on. A duration has 32 bits (log 32). -/
def Obligations.CountedFramesFollowTheirLength : Prop :=
  ∀ (i : Fin 8) (bits : Byte) (parityBit stopHigh : Bool) (s : State) (cur : CurrentFrame),
    let l := s.lines[i]
    let value := charValue l.cfg.sevenBits bits
    let errored := parityError l.cfg.parity value parityBit || !stopHigh
    let now := s.time.elapsed
    let a := l.charDone now errored stopHigh
    let total := if cur.count = l.cfg.lenOffset.toNat then some (value.toNat + l.cfg.addend.toNat) else cur.total
    let leaves := fun (c : Capture) (m : Line) => exec (.characterCompletion i bits parityBit stopHigh) s = .next { s with
      inc := s.inc.evaluated, capture := c, lines := s.lines.set i m }
    s.Sampling i 1 → l.cfg.mode = .counted → s.frameFor i = some cur →
    (∀ id c f, cur.taking = .stored → cur.count < l.cfg.maxLength → s.byteGoes i cur.slot value = some (id, c) →
      c.frame? id = some f →
      let next := { cur with total := total }.more now (some id) errored
      let ending := fun (cut broken : Bool) => f.ended l next now cut broken (c.frameBytes f)
      let reach := fun (cut broken : Bool) (r : Reception) (left : Option Nat) =>
        leaves { c with slots := insertKey id (ending cut broken) c.slots }
          (Line.handedOn a id (ending cut broken) r left)
      (total = none → leaves c (a.inside next))
      ∧ (∀ n, total = some n →
          (n ≤ l.cfg.lenOffset.toNat → reach false true .hunt none)
          ∧ (l.cfg.lenOffset.toNat < n → n = cur.count + 1 → reach false false .hunt none)
          ∧ (l.cfg.lenOffset.toNat < n → cur.count + 1 < n → cur.count + 1 = l.cfg.maxLength →
              reach true false .discarding (some (n - (cur.count + 1))))
          ∧ (l.cfg.lenOffset.toNat < n → n < cur.count + 1 → cur.count + 1 = l.cfg.maxLength →
              reach true false .hunt none)
          ∧ (l.cfg.lenOffset.toNat < n → n ≠ cur.count + 1 → cur.count + 1 ≠ l.cfg.maxLength →
              leaves c (a.inside next))))
    ∧ (cur.taking ≠ .stored →
      let next := { cur with total := total }.more now none errored
      (total = none → leaves s.capture (a.inside next))
      ∧ (∀ n, total = some n →
          (n ≤ l.cfg.lenOffset.toNat ∨ n = cur.count + 1 → leaves s.capture (a.unheld next))
          ∧ (l.cfg.lenOffset.toNat < n → n ≠ cur.count + 1 → leaves s.capture (a.inside next))))

/-- With no free page, CHARACTER_COMPLETION on a GAP line (R39 to R41, R6): the oldest unpinned frame of a RING history
is freed and the byte stored in its first page; without such a frame, the frame in reception, begun or not, is
abandoned: its pages free, lost counted, the attention flag set, DISCARDING. -/
def Obligations.ExhaustionReclaimsOrAbandons : Prop :=
  ∀ (i : Fin 8) (bits : Byte) (parityBit : Bool) (s : State),
    let l := s.lines[i]
    let value := charValue l.cfg.sevenBits bits
    let candidate := fun (j : Fin 8) (x : Nat) (g : Frame) =>
      s.lines[j].cfg.policy = .ring ∧ x ∈ s.capture.hist[j] ∧ s.capture.frame? x = some g ∧ g.pins = 0
    l.state = .active → l.awaitHigh = false → l.awaiting.length ≤ 2 → l.cfg.mode = .gap → s.capture.free = [] →
    1 ≤ l.cfg.maxLength → (∀ x g, s.capture.frame? x = some g → g.pages ≠ []) →
    (l.reception = .hunt → (∃ j x g, candidate j x g) →
      Completes (.characterCompletion i bits parityBit true) s fun t => ∃ j x g page rest, candidate j x g
        ∧ (∀ j' x' g', candidate j' x' g' → g.start ≤ g'.start) ∧ g.pages = page :: rest
        ∧ t.capture.hist = s.capture.hist.set j ((s.capture.hist[j]).filter (· != x))
        ∧ t.capture.slots = insertKey (lowestFree 0 (eraseKey x s.capture.slots)) (Frame.begun i page)
            (eraseKey x s.capture.slots)
        ∧ t.capture.free = rest ∧ t.capture.mem = s.capture.mem.write (page * 64) value
        ∧ t.capture.handed = s.capture.handed ∧ t.lines[i].reception = .receiving
        ∧ t.lines[i].counters.lost = l.counters.lost ∧ t.store = s.store ∧ t.records = s.records)
    ∧ (l.reception = .hunt → (¬ ∃ j x g, candidate j x g) →
      Completes (.characterCompletion i bits parityBit true) s fun t =>
        t.capture = s.capture ∧ t.lines[i].counters.lost = l.counters.lost + 1 ∧ t.lines[i].attention = true
          ∧ t.lines[i].reception = .discarding ∧ t.lines[i].current = none ∧ t.lines[i].nextSeq = l.nextSeq
          ∧ (∀ j : Fin 8, j ≠ i → t.lines[j] = s.lines[j]) ∧ t.link = s.link)
    ∧ (∀ cur id f, l.reception = .receiving → l.current = some cur → cur.taking = .stored → cur.slot = some id →
      s.capture.frame? id = some f → cur.count < l.cfg.maxLength → f.length % 64 = 0 → cur.total = none →
      (¬ ∃ j x g, candidate j x g) →
      Completes (.characterCompletion i bits parityBit true) s fun t =>
        t.capture.free = f.pages ∧ t.capture.slots = eraseKey id s.capture.slots ∧ t.capture.hist = s.capture.hist
          ∧ t.capture.mem = s.capture.mem ∧ t.lines[i].counters.lost = l.counters.lost + 1
          ∧ t.lines[i].attention = true ∧ t.lines[i].reception = .discarding ∧ t.lines[i].current = none
          ∧ t.lines[i].nextSeq = l.nextSeq ∧ t.lines[i].awaiting = l.awaiting)

/-- START_LINE: state by limit, pressure and sheddable, reception by mode; WRONG_STATE unless STOPPED. An entry into
SUSPENDED or SHED sets the attention flag (R20, R200; R16 read as of the request by itself, log 33). STOP_LINE:
STOPPED with no frame in the line's charge, STOPPING with one; no change in STOPPED and STOPPING. LINE_STATE is queued
at a change that the masks let pass. -/
def Obligations.LinesStartAndStop : Prop :=
  (∀ (tag line : Byte) (pinHigh : Bool) (i : Fin 8) (s : State), lineOf line = some i →
    s.Executing (.startLine tag line pinHigh) →
    let l := s.lines[i]
    let total := (s.capture.hist[i]).length + (s.capture.handed[i]).length
    let st : LineState :=
      if l.cfg.policy = .feed ∧ l.cfg.depth ≤ total then .suspended
      else if s.capture.pressure = true ∧ l.cfg.sheddable = true then .shed else .active
    (l.state ≠ .stopped → Completes (.startLine tag line pinHigh) s fun t =>
        s.OnlyLink t ∧ s.Answered t (.startLine tag line pinHigh) .wrongState [])
    ∧ (l.state = .stopped → Completes (.startLine tag line pinHigh) s fun t =>
        t.Carries (.startLine tag line pinHigh) .ok [st.code]
          ∧ t = { s with lines := t.lines, inc := s.inc.evaluated, link := t.link, freeKey := t.freeKey }
          ∧ (∀ j : Fin 8, j ≠ i → t.lines[j] = s.lines[j])
          ∧ (s.Queues 1 [2] → s.link.lineMask.getLsbD i.val = true →
              t.link.notices = s.link.notices ++ [⟨s.link.number, s.time.tod,
                .lineState i st .stopped (l.attention || st == .suspended || st == .shed)⟩])
          ∧ t.lines[i] = { l with
              state := st
              attention := l.attention || st == .suspended || st == .shed
              reception := if l.cfg.mode = .marked then .hunt else .discarding
              current := none, inCharacter := false, awaitHigh := !pinHigh, escape := false, discardLeft := none
              idle := if l.cfg.mode ≠ .marked ∧ pinHigh = true then some ⟨s.time.elapsed, 0⟩ else none }))
  ∧ (∀ (tag line : Byte) (i : Fin 8) (s : State), lineOf line = some i → s.Executing (.stopLine tag line) →
    let l := s.lines[i]
    (l.state = .stopped ∨ l.state = .stopping → Completes (.stopLine tag line) s fun t =>
        s.OnlyLink t ∧ s.Answered t (.stopLine tag line) .ok [l.state.code])
    ∧ (l.state ≠ .stopped → l.state ≠ .stopping → Completes (.stopLine tag line) s fun t =>
        t = { s with lines := t.lines, inc := s.inc.evaluated, link := t.link, freeKey := t.freeKey }
          ∧ (∀ j : Fin 8, j ≠ i → t.lines[j] = s.lines[j])
          ∧ t.Carries (.stopLine tag line) .ok [t.lines[i].state.code]
          ∧ (s.Queues 1 [2] → s.link.lineMask.getLsbD i.val = true →
              t.link.notices = s.link.notices ++ [⟨s.link.number, s.time.tod,
                .lineState i t.lines[i].state l.state l.attention⟩])
          ∧ (if l.storing = true then t.lines[i] = { l with state := .stopping }
             else t.lines[i] = { l with
               state := if l.awaiting = [] then .stopped else .stopping
               reception := .hunt, current := none, inCharacter := false, awaitHigh := false, idle := none
               escape := false, discardLeft := none })))

/-- CONFIGURE_LINE: WRONG_STATE unless STOPPED with nothing handed out, BAD_ARGUMENT out of range, and otherwise the
configuration replaced, the history emptied, sequence, counters and attention cleared. -/
def Obligations.ConfigureLineReplacesTheConfiguration : Prop :=
  ∀ (tag line : Byte) (arg : LineArg) (i : Fin 8) (s : State), lineOf line = some i →
    s.Executing (.configureLine tag line arg) →
    (s.lines[i].state ≠ .stopped ∨ s.capture.handed[i] ≠ [] → Completes (.configureLine tag line arg) s fun t =>
        s.OnlyLink t ∧ s.Answered t (.configureLine tag line arg) .wrongState [])
    ∧ (s.lines[i].state = .stopped → s.capture.handed[i] = [] → lineConfigOf arg = none →
        Completes (.configureLine tag line arg) s fun t =>
          s.OnlyLink t ∧ s.Answered t (.configureLine tag line arg) .badArgument [])
    ∧ (∀ cfg, s.lines[i].state = .stopped → s.capture.handed[i] = [] → lineConfigOf arg = some cfg →
        Completes (.configureLine tag line arg) s fun t =>
          t.Carries (.configureLine tag line arg) .ok [] ∧ t.capture.hist[i] = []
            ∧ t.lines[i] = { s.lines[i] with
                cfg := cfg, nextSeq := 0, counters := ⟨0, 0, 0, 0, 0, 0, 0⟩, attention := false }
            ∧ (∀ id ∈ s.capture.hist[i], ∀ f, s.capture.frame? id = some f →
                t.capture.frame? id = if f.pins = 0 then none else some { f with place := .detached })
            ∧ (∀ j : Fin 8, j ≠ i → t.capture.hist[j] = s.capture.hist[j])
            ∧ t.capture.mem = s.capture.mem ∧ t.matcher = s.matcher ∧ t.inc = s.inc.evaluated ∧ t.store = s.store
            ∧ t.records = s.records ∧ t.time = s.time)

/-- GET_LINE_COUNTS replies the line's state and counters, and with clear 1 zeroes counters and attention. -/
def Obligations.GetLineCountsReadsThenClears : Prop :=
  ∀ (tag line clear : Byte) (s : State), s.Executing (.getLineCounts tag line clear) →
    (lineOf line = none ∨ 2 ≤ clear.toNat → Completes (.getLineCounts tag line clear) s fun t =>
        s.OnlyLink t ∧ s.Answered t (.getLineCounts tag line clear) .badArgument [])
    ∧ (∀ i, lineOf line = some i → clear.toNat ≤ 1 → Completes (.getLineCounts tag line clear) s fun t =>
        let l := s.lines[i]
        t = { s with lines := t.lines, link := t.link, freeKey := t.freeKey }
          ∧ t.lines = (if clear = 1 then
              s.lines.set i { l with counters := ⟨0, 0, 0, 0, 0, 0, 0⟩, attention := false } else s.lines)
          ∧ s.Answered t (.getLineCounts tag line clear) .ok
            ([l.state.code, l.reception.code, boolByte l.attention] ++ encLE 2 l.nextSeq ++ encLE 4 l.counters.kept
              ++ encLE 4 l.counters.bad ++ encLE 4 l.counters.dropped ++ encLE 4 l.counters.cut
              ++ encLE 4 l.counters.lost ++ encLE 4 l.counters.shed ++ encLE 4 l.counters.charErrors))

/-! ### Capture memory -/

/-- SET_POOL_MARK: 0 to 512; the mark replaced, the pressure by the two marks (R42), sheddable lines moved at a change,
with its notices (R44, R200; their order: log 16). A page claim that leaves the low mark's pages free or fewer sets
pressure ON at its event (R43): here the first character of a GAP frame, which its line takes as stored and may then be
SHED (R5). -/
def Obligations.SetPoolMarkEvaluatesPressure : Prop :=
  (∀ (tag : Byte) (mark : Half) (s : State), s.Executing (.setPoolMark tag mark) →
    let on :=
      if s.capture.pressure = true then decide (s.capture.free.length < mark.toNat + 32)
      else decide (s.capture.free.length ≤ mark.toNat)
    (512 < mark.toNat → Completes (.setPoolMark tag mark) s fun t =>
        s.OnlyLink t ∧ s.Answered t (.setPoolMark tag mark) .badArgument [])
    ∧ (mark.toNat ≤ 512 → Completes (.setPoolMark tag mark) s fun t =>
        t = { s with capture := { s.capture with lowMark := mark.toNat, pressure := on }, lines := t.lines,
                     inc := s.inc.evaluated, link := t.link, freeKey := t.freeKey }
          ∧ (∀ i : Fin 8, t.lines[i] = s.lines[i].pressed s.capture.pressure on)
          ∧ (s.Queues 9 [2, 3] → t.link.notices.map (fun q => q.notice)
              = s.link.notices.map (fun q => q.notice) ++ s.pressureNotices t)
          ∧ t.Carries (.setPoolMark tag mark) .ok
              (u16 mark.toNat ++ [boolByte on] ++ u16 s.capture.free.length)))
  ∧ (∀ (i : Fin 8) (bits : Byte) (parityBit stopHigh : Bool) (s : State) (page : Nat) (rest : List Nat),
    let l := s.lines[i]
    let value := charValue l.cfg.sevenBits bits
    let errored := parityError l.cfg.parity value parityBit || !stopHigh
    let id := lowestFree 0 s.capture.slots
    let taken := (l.charDone s.time.elapsed errored stopHigh).inside
      ((l.fresh s.time).more s.time.elapsed (some id) errored)
    s.Sampling i 2 → l.state = .active → l.cfg.mode = .gap → l.reception = .hunt → 1 ≤ l.cfg.maxLength →
    s.capture.free = page :: rest → s.capture.pressure = false → rest.length ≤ s.capture.lowMark →
    Completes (.characterCompletion i bits parityBit stopHigh) s fun t =>
      t = { s with
          inc := s.inc.evaluated
          capture := { s.capture with
            free := rest, slots := insertKey id (Frame.begun i page) s.capture.slots
            mem := s.capture.mem.write (page * 64) value, pressure := true }
          lines := t.lines, link := t.link, freeKey := t.freeKey }
        ∧ t.lines[i] = taken.pressed false true
        ∧ (∀ j : Fin 8, j ≠ i → t.lines[j] = s.lines[j].pressed false true)
        ∧ (s.Queues 9 [2, 3] → t.link.notices.map (fun q => q.notice)
            = s.link.notices.map (fun q => q.notice) ++ s.pressureNotices t))

/-- LIST_FRAMES, READ_FRAME, GET_STORE_STATUS, LIST_INCIDENTS and LIST_RECORDS change nothing, and carry their replies
or refusals: LIST_FRAMES the fields of R154 and the descriptors; READ_FRAME the first frame that carries the sequence,
the handed-out list first; GET_STORE_STATUS the summary, the work items and 64 descriptions (R116, R190);
LIST_INCIDENTS the COMMITTING incident, the commit queue, then COLLECTING in order of opening; LIST_RECORDS the
entries that meet its conditions. Whether an odd presence byte counts as present is open (log 22). -/
def Obligations.ReadsAndListsChangeNothing : Prop :=
  (∀ (tag line list present : Byte) (after : Half) (max : Byte) (s : State),
    s.Executing (.listFrames tag line list present after max) →
    (8 ≤ line.toNat ∨ 2 ≤ list.toNat ∨ max.toNat = 0 ∨ 32 < max.toNat →
      Completes (.listFrames tag line list present after max) s fun t =>
        s.OnlyLink t ∧ s.Answered t (.listFrames tag line list present after max) .badArgument [])
    ∧ (∀ i, lineOf line = some i → list.toNat < 2 → 1 ≤ max.toNat → max.toNat ≤ 32 →
      Completes (.listFrames tag line list present after max) s fun t =>
        let l := s.lines[i]
        let named := if list = 0 then s.capture.hist[i] else s.capture.handed[i]
        let other := if list = 0 then s.capture.handed[i] else s.capture.hist[i]
        let behind := if presenceOf present = true then named.dropWhile fun id => s.capture.seqOf id != after else []
        let shown := if behind = [] then named else behind.tail
        s.OnlyLink t ∧ s.Answered t (.listFrames tag line list present after max) .ok
          ([line, list, l.state.code, l.cfg.policy.code] ++ u8 l.cfg.depth ++ u8 named.length ++ u8 other.length
            ++ [boolByte (behind != [])] ++ u8 (min max.toNat shown.length)
            ++ [boolByte (decide (max.toNat < shown.length))]
            ++ (shown.take max.toNat).flatMap fun id => ((s.capture.frame? id).map Frame.described).getD [])))
  ∧ (∀ (tag line : Byte) (seq : Half) (s : State), s.Executing (.readFrame tag line seq) →
    (8 ≤ line.toNat → Completes (.readFrame tag line seq) s fun t =>
        s.OnlyLink t ∧ s.Answered t (.readFrame tag line seq) .badArgument [])
    ∧ (∀ i, lineOf line = some i → Completes (.readFrame tag line seq) s fun t =>
        let from_ := (s.capture.handed[i] ++ s.capture.hist[i]).dropWhile fun id => s.capture.seqOf id != seq
        s.OnlyLink t ∧ (from_ = [] → s.Answered t (.readFrame tag line seq) .notFound [])
          ∧ ∀ id, from_.head? = some id → ∀ f, s.capture.frame? id = some f →
              s.Answered t (.readFrame tag line seq) .ok (f.described ++ s.capture.frameBytes f)))
  ∧ (∀ (tag : Byte) (s : State), s.Executing (.getStoreStatus tag) → Completes (.getStoreStatus tag) s fun t =>
      s.OnlyLink t ∧ s.Answered t (.getStoreStatus tag) .ok
        (s.summary ++ s.store.work.flatMap WorkItem.described
          ++ allSectors.flatMap fun x => s.store.sectors[x].described (s.store.state == .scanning)))
  ∧ (∀ (tag : Byte) (s : State), s.Executing (.listIncidents tag) → Completes (.listIncidents tag) s fun t =>
      let order := allSlots.filter (fun k => (s.inc.table[k]).any fun n => n.state == .committing)
        ++ s.inc.queue ++ s.inc.opened.filter (fun k => (s.inc.table[k]).any fun n => n.state == .collecting)
      let listed := order.filterMap fun k => s.inc.table[k]
      s.OnlyLink t ∧ s.Answered t (.listIncidents tag) .ok
        (u8 listed.length ++ listed.flatMap (Incident.bytes s.time.elapsed)))
  ∧ (∀ (tag : Byte) (first : Word) (filter max : Byte) (s : State), s.Executing (.listRecords tag first filter max) →
      Completes (.listRecords tag first filter max) s fun t => s.OnlyLink t ∧
        if (64 ≤ filter.toNat ∧ filter ≠ 0xFF#8) ∨ max.toNat = 0 ∨ 40 < max.toNat then
          s.Answered t (.listRecords tag first filter max) .badArgument []
        else if s.store.state = .scanning then s.Answered t (.listRecords tag first filter max) .notReady []
        else
          let es := s.records.index.filter fun e =>
            decide (first ≤ e.serial) && (filter == 0xFF#8 || filter.toNat == e.sector.val)
          s.Answered t (.listRecords tag first filter max) .ok
            (u16 s.records.index.length ++ u8 (min max.toNat es.length)
              ++ [boolByte (decide (max.toNat < es.length))] ++ (es.take max.toNat).flatMap IndexEntry.described))

/-- TAKE_FRAMES moves the oldest frames of the history to the handed-out list. -/
def Obligations.TakeFramesMovesTheOldest : Prop :=
  ∀ (tag line count : Byte) (i : Fin 8) (s : State), lineOf line = some i → 1 ≤ count.toNat → count.toNat ≤ 32 →
    s.Executing (.takeFrames tag line count) →
    (s.lines[i].cfg.policy = .ring → Completes (.takeFrames tag line count) s fun t =>
        s.OnlyLink t ∧ s.Answered t (.takeFrames tag line count) .wrongState [])
    ∧ (s.lines[i].cfg.policy = .feed → Completes (.takeFrames tag line count) s fun t =>
        let moved := (s.capture.hist[i]).take count.toNat
        t = { s with capture := t.capture, link := t.link, freeKey := t.freeKey }
          ∧ t.capture.hist = s.capture.hist.set i ((s.capture.hist[i]).drop count.toNat)
          ∧ t.capture.handed = s.capture.handed.set i (s.capture.handed[i] ++ moved)
          ∧ t.capture.free = s.capture.free ∧ t.capture.mem = s.capture.mem ∧ t.capture.pressure = s.capture.pressure
          ∧ (∀ id f, s.capture.frame? id = some f →
              t.capture.frame? id = some (if id ∈ moved then { f with place := .handedOut } else f))
          ∧ s.Answered t (.takeFrames tag line count) .ok
              (u8 i.val ++ u8 moved.length ++ moved.flatMap (fun id => encLE 2 (s.capture.seqOf id))
                ++ u8 ((s.capture.hist[i]).length - moved.length)
                ++ u8 ((s.capture.handed[i]).length + moved.length) ++ u8 s.lines[i].cfg.depth
                ++ [s.lines[i].state.code]))

/-- RELEASE_FRAMES removes the handed-out frames up to the named one, frees the unpinned, resumes a SUSPENDED line
below its limit by the pressure after the release, and replies what it did. -/
def Obligations.ReleaseFramesFreesAndResumes : Prop :=
  ∀ (tag line : Byte) (seq : Half) (i : Fin 8) (s : State) (rest : List Nat), lineOf line = some i →
    s.Executing (.releaseFrames tag line seq) → s.lines[i].cfg.policy = .feed →
    (s.capture.fromSeq seq s.capture.handed[i] = none → Completes (.releaseFrames tag line seq) s fun t =>
        s.OnlyLink t ∧ s.Answered t (.releaseFrames tag line seq) .notFound [])
    ∧ (s.capture.fromSeq seq s.capture.handed[i] = some rest → Completes (.releaseFrames tag line seq) s fun t =>
        let n := (s.capture.handed[i]).length + 1 - rest.length
        let gone := (s.capture.handed[i]).take n
        let freed := (gone.filter fun id => (s.capture.frame? id).any fun f => f.pins == 0).length
        t.capture.handed = s.capture.handed.set i ((s.capture.handed[i]).drop n)
          ∧ t.capture.hist = s.capture.hist
          ∧ (∀ id ∈ gone, ∀ f, s.capture.frame? id = some f →
              t.capture.frame? id = if f.pins = 0 then none else some { f with place := .detached })
          ∧ (∀ id, id ∉ gone → t.capture.frame? id = s.capture.frame? id)
          ∧ (s.lines[i].state = .suspended →
              t.lines[i].state = if (s.capture.hist[i]).length + (s.capture.handed[i]).length - n < s.lines[i].cfg.depth
                then (if t.capture.pressure = true ∧ s.lines[i].cfg.sheddable = true then .shed else .active)
                else .suspended)
          ∧ t.Carries (.releaseFrames tag line seq) .ok
              (u8 i.val ++ u8 n ++ u8 freed ++ u8 (n - freed) ++ u8 (s.capture.hist[i]).length
                ++ u8 ((s.capture.handed[i]).length - n) ++ [t.lines[i].state.code] ++ u16 t.capture.free.length)
          ∧ t.capture.mem = s.capture.mem ∧ t.matcher = s.matcher ∧ t.inc = s.inc.evaluated ∧ t.store = s.store
          ∧ t.records = s.records ∧ t.time = s.time)

/-! ### Match table and classification -/

/-- WRITE_ENTRY replaces the definition and starts the runtime fields afresh, or refuses and changes nothing. -/
def Obligations.WriteEntryStartsAfresh : Prop :=
  ∀ (tag entry : Byte) (body : EntryDef) (s : State), s.Executing (.writeEntry tag entry body) →
    (∀ e, entryOf entry = some e → body.ok e = true → Completes (.writeEntry tag entry body) s fun t =>
        t = { s with
            link := t.link
            freeKey := t.freeKey
            matcher := { s.matcher with
              entries := s.matcher.entries.set e
                       { body := body, lastMatch := none, holdoffEnd := none, count := 0 } } }
          ∧ s.Answered t (.writeEntry tag entry body) .ok [])
    ∧ ((∀ e, entryOf entry = some e → body.ok e = false) → Completes (.writeEntry tag entry body) s fun t =>
        s.OnlyLink t ∧ s.Answered t (.writeEntry tag entry body) .badArgument [])

/-- READ_ENTRY reports definition and runtime fields and changes nothing; the value bytes of an absent after-condition
are zeros (R189). -/
def Obligations.ReadEntryReportsTheEntry : Prop :=
  ∀ (tag entry : Byte) (s : State), s.Executing (.readEntry tag entry) → Completes (.readEntry tag entry) s fun t =>
    s.OnlyLink t ∧
      match entryOf entry with
      | none => s.Answered t (.readEntry tag entry) .badArgument []
      | some e =>
        let x := s.matcher.entries[e]
        let b := if x.body.afterOn = 0 then { x.body with afterEntry := 0, afterWindow := 0 } else x.body
        s.Answered t (.readEntry tag entry) .ok
          (b.bytes
            ++ (match x.lastMatch with | some m => 1 :: encLE 6 m | none => [0, 0, 0, 0, 0, 0, 0])
            ++ (match x.holdoffEnd with | some p => 1 :: u16 (msLeft s.time.elapsed p) | none => [0, 0, 0])
            ++ encLE 4 x.count)

/-- R68: CLEAR_ENTRY. -/
def Obligations.ClearEntryMakesItUnused : Prop :=
  ∀ (tag entry : Byte) (s : State), s.Executing (.clearEntry tag entry) →
    (16 ≤ entry.toNat → Completes (.clearEntry tag entry) s fun t =>
        s.OnlyLink t ∧ s.Answered t (.clearEntry tag entry) .badArgument [])
    ∧ (∀ h : entry.toNat < 16, Completes (.clearEntry tag entry) s fun t =>
        t = { s with
            link := t.link
            freeKey := t.freeKey
            matcher := { s.matcher with
              entries := s.matcher.entries.set (⟨entry.toNat, h⟩ : Fin 16)
                       { body := ⟨0, 0, 0, 0, 0, 0, 0, 0, 0, 0, 0, 0, 0, 0, 0, 0, 0, 0, 0, 0, 0, 0, 0⟩
                         lastMatch := none, holdoffEnd := none, count := 0 } } }
          ∧ s.Answered t (.clearEntry tag entry) .ok [])

/-- The tests of R49 to R53 on the stored bytes of a frame, for the status and sense codes that WRITE_ENTRY admits
(R66): an entry matches exactly when every condition holds, the DIRECT comparison and the digest among them. -/
def Obligations.EntryMatchesExactlyWhenEveryConditionHolds : Prop :=
  ∀ (m : Matcher) (e : EntryDef) (c : Capture) (f : Frame) (ref : Stamp), e.status.toNat ≤ 2 → e.sense.toNat ≤ 1 →
    let byte := fun j => byteAt (c.frameBytes f) (e.offset.toNat + j)
    let agrees := fun j => byte j &&& e.byteMask.extractLsb' (8 * j) 8
      = e.pattern.extractLsb' (8 * j) 8 &&& e.byteMask.extractLsb' (8 * j) 8
    let selected := ((List.range e.span.toNat).filter fun j => e.spanMask.getLsbD j).map byte
    (m.matchesFrame e f (c.frameBytes f) ref = true ↔
      (e.kind = 1 ∨ e.kind = 2) ∧ e.enabled = 1 ∧ e.lineSet.getLsbD f.line.val = true
        ∧ (e.status = 1 → isBad f.check f.flags = false) ∧ (e.status = 2 → isBad f.check f.flags = true)
        ∧ e.lenMin.toNat ≤ f.length ∧ f.length ≤ e.lenMax.toNat
        ∧ (e.kind = 1 → e.offset.toNat + e.width.toNat ≤ f.length
            ∧ (e.sense = 0 → ∀ j < e.width.toNat, agrees j) ∧ (e.sense = 1 → ∃ j < e.width.toNat, ¬ agrees j))
        ∧ (e.kind = 2 → e.offset.toNat + e.span.toNat ≤ f.length ∧ crc16 selected = e.digest)
        ∧ (e.afterOn ≠ 0 → ∃ r t, entryOf e.afterEntry = some r ∧ m.entries[r].lastMatch = some t
            ∧ t.toNat ≤ ref.toNat ∧ ref.toNat ≤ t.toNat + e.afterWindow.toNat * 1000))

/-- CLASSIFICATION against a table without enabled entries and without incidents: a bad frame on a line that does not
keep bad ones is freed and counted in dropped (R59, R29); any other is appended to a RING history, at the depth with
the oldest displaced (R31), or to a FEED history below the limit, SUSPENDED at it and FEED_READY on an empty history
(R32, R161; its line state, log 39), and freed and counted in dropped at the limit (R33). -/
def Obligations.UnmatchedFramesArePlacedOrDropped : Prop :=
  ∀ (i : Fin 8) (s : State) (id : Nat) (rest : List Nat) (f : Frame),
    let l := s.lines[i]
    let h := s.capture.hist[i]
    let total := h.length + (s.capture.handed[i]).length
    let keep := isBad f.check f.flags = false ∨ l.cfg.keepBad = true
    let kept := { f with matchSet := 0, place := Place.inHistory }
    let appended := { s.capture with
      hist := s.capture.hist.set i (h ++ [id]), slots := insertKey id kept s.capture.slots }
    let taken := { l with awaiting := rest, counters := { l.counters with kept := l.counters.kept + 1 } }
    (∀ e : Fin 16, s.matcher.entries[e].body.enabled ≠ 1) → l.awaiting = id :: rest →
    s.capture.frame? id = some f → f.pins = 0 → l.state = .active →
    (∀ k : Fin 4, s.inc.table[k] = none) → s.inc.opened = [] → s.NothingToGrant →
    (keep → l.cfg.policy = .ring → h.length < l.cfg.depth → exec (.classification i) s = .next { s with
        capture := appended, lines := s.lines.set i taken, inc := { s.inc with evtOut := false } })
    ∧ (∀ oldest more g, keep → l.cfg.policy = .ring → h = oldest :: more → l.cfg.depth ≤ h.length → oldest ≠ id →
        s.capture.frame? oldest = some g → Completes (.classification i) s fun t =>
          t.capture.hist = s.capture.hist.set i (more ++ [id]) ∧ t.capture.frame? id = some kept
            ∧ t.capture.frame? oldest = (if g.pins = 0 then none else some { g with place := .detached })
            ∧ t.capture.free = (if g.pins = 0 then s.capture.free ++ g.pages else s.capture.free)
            ∧ t.capture.handed = s.capture.handed ∧ t.capture.mem = s.capture.mem
            ∧ t.lines[i].awaiting = rest ∧ t.lines[i].counters = { l.counters with kept := l.counters.kept + 1 })
    ∧ (keep → l.cfg.policy = .feed → total < l.cfg.depth → exec (.classification i) s =
        (let full := total + 1 = l.cfg.depth
         let st := if full then LineState.suspended else .active
         let att := l.attention || decide full
         let k1 := if h = [] then s.link.notify s.time.tod (.feedReady i f.seq 1 (s.capture.handed[i]).length st)
           else s.link
         .next { s with
           capture := appended
           lines := s.lines.set i { taken with state := st, attention := att }
           inc := { s.inc with evtOut := false }
           link := if full then k1.notify s.time.tod (.lineState i .suspended .active true) else k1 }))
    ∧ ((keep ∧ l.cfg.policy = .feed ∧ l.cfg.depth ≤ total) ∨ (isBad f.check f.flags = true ∧ l.cfg.keepBad = false) →
        Completes (.classification i) s fun t =>
          t.capture.frame? id = none ∧ t.capture.free = s.capture.free ++ f.pages
            ∧ t.capture.hist = s.capture.hist ∧ t.capture.handed = s.capture.handed ∧ t.capture.mem = s.capture.mem
            ∧ t.lines[i].awaiting = rest
            ∧ t.lines[i].counters = { l.counters with dropped := l.counters.dropped + 1 })

/-- CLASSIFICATION of a good frame on a RING line when one enabled entry matches it (R54, R57 to R59, R61, R74): the
match is recorded; MARK keeps the frame, DROP drops it, TRIGGER opens an incident in a free slot with the frame as its
trigger and its pre-window pinned, with INCIDENT_OPENED, or is missed without a slot, with TRIGGER_MISSED, or does not
fire in holdoff. The slot number is the model's choice (log 24), and so is the order of notices of different blocks
(log 16). -/
def Obligations.MatchingEntryActs : Prop :=
  ∀ (i : Fin 8) (s : State) (id : Nat) (rest : List Nat) (f : Frame) (e : Fin 16),
    let l := s.lines[i]
    let x := s.matcher.entries[e]
    let bit : Half := 1#16 <<< e.val
    let matched := fun (t : State) (holdoff : Option Stamp) => t.matcher.entries = s.matcher.entries.set e
      { x with lastMatch := some f.start, count := x.count + 1, holdoffEnd := holdoff }
    let keptWith := fun (t : State) (pins : Nat) =>
      t.capture.frame? id = some { f with matchSet := bit, place := .inHistory, pins := pins }
        ∧ id ∈ t.capture.hist[i] ∧ t.lines[i].counters.kept = l.counters.kept + 1
    s.framesPlaced → l.awaiting = id :: rest → s.capture.frame? id = some f → f.pins = 0 →
    isBad f.check f.flags = false → l.cfg.policy = .ring → (∀ d : Fin 16, d ≠ e → s.matcher.entries[d].body.enabled ≠ 1) →
    s.matcher.matchesFrame x.body f (s.capture.frameBytes f) s.time.tod = true → s.arrayIdle = false →
    (∀ k : Fin 4, ∀ n, s.inc.table[k] = some n → n.state ≠ .collecting) →
    (x.body.action = 0 → Completes (.classification i) s fun t =>
        matched t x.holdoffEnd ∧ keptWith t 0 ∧ t.inc = s.inc.evaluated)
    ∧ (x.body.action = 1 → Completes (.classification i) s fun t =>
        matched t x.holdoffEnd ∧ t.capture.frame? id = none ∧ t.capture.hist = s.capture.hist
          ∧ t.lines[i].counters.dropped = l.counters.dropped + 1 ∧ t.inc = s.inc.evaluated)
    ∧ (x.body.action = 2 → x.holdoffEnd ≠ none → Completes (.classification i) s fun t =>
        matched t x.holdoffEnd ∧ keptWith t 0 ∧ t.matcher.missed = s.matcher.missed ∧ t.inc = s.inc.evaluated)
    ∧ (x.body.action = 2 → x.holdoffEnd = none → (∀ k : Fin 4, s.inc.table[k] ≠ none) →
        Completes (.classification i) s fun t =>
          matched t none ∧ keptWith t 0 ∧ t.matcher.missed = s.matcher.missed + 1 ∧ t.inc = s.inc.evaluated
            ∧ (s.Queues 1 [4] →
                .triggerMissed e .entry (some (i, f.seq)) f.start (s.matcher.missed + 1) ∈ s.joined t))
    ∧ (∀ k, x.body.action = 2 → x.holdoffEnd = none → s.inc.freeSlot = some k →
        Completes (.classification i) s fun t =>
          matched t (if x.body.holdoff = 0 then none
              else some (s.time.elapsed + BitVec.ofNat 48 (x.body.holdoff.toNat * 1000)))
            ∧ keptWith t 1 ∧ t.matcher.missed = s.matcher.missed
            ∧ (∃ n, t.inc.table[k] = some n ∧ s.Opened n e .entry (some (i, f.seq)) (some id) f.start s.time.elapsed
                ∧ (f.length ≤ 1024 → n.budget ≤ 32624)
                ∧ (∀ x ∈ n.frames, x ≠ id → ∃ g h, s.capture.frame? x = some g ∧ t.capture.frame? x = some h
                    ∧ h.pins = g.pins + 1)
                ∧ (s.Queues 2 [5, 6] → n.openingNotices <+: s.joined t))
            ∧ ∀ j : Fin 4, j ≠ k → t.inc.table[j] = s.inc.table[j])

/-- CLASSIFICATION of a kept frame, no entry enabled, with one COLLECTING incident that captures its line (R60, R81,
R82): attached and pinned when it fits the byte budget, closing the incident with COUNT at its post count; otherwise
the incident closes with FULL. A closing queues INCIDENT_CLOSED. A frame attached but not appended, at a FEED line's
limit, is DETACHED (R33). -/
def Obligations.KeptFrameJoinsTheCollectingIncident : Prop :=
  ∀ (i : Fin 8) (s : State) (id : Nat) (rest : List Nat) (f : Frame) (k : Fin 4) (n : Incident),
    let l := s.lines[i]
    let cost := 24 + (f.length + 3) / 4 * 4
    let closes := n.postCount ≠ 0 ∧ n.postFrames + 1 = n.postCount
    let limit := l.cfg.policy = .feed ∧ l.cfg.depth ≤ (s.capture.hist[i]).length + (s.capture.handed[i]).length
    s.framesPlaced → s.pinsAgree → (∀ e : Fin 16, s.matcher.entries[e].body.enabled ≠ 1) → l.awaiting = id :: rest →
    s.capture.frame? id = some f → isBad f.check f.flags = false ∨ l.cfg.keepBad = true →
    s.inc.table[k] = some n → s.inc.opened = [k] → n.state = .collecting → n.captureSet.getLsbD i.val = true →
    s.arrayIdle = false → Completes (.classification i) s fun t =>
      if n.budget + cost ≤ 32624 then
        t.inc.table = s.inc.table.set k (some { n with
            frames := s.capture.place id n.frames, budget := n.budget + cost, postFrames := n.postFrames + 1
            state := if closes then .queued else .collecting
            closeReason := if closes then some .count else n.closeReason
            postTimer := if closes then none else n.postTimer })
          ∧ t.inc.queue = (if closes then s.inc.queue ++ [k] else s.inc.queue)
          ∧ (closes → s.Queues 1 [6] → .incidentClosed n.id .count (n.frames.length + 1) (n.budget + cost)
              (n.postFrames + 1) n.preTrimmed n.retried ∈ s.joined t)
          ∧ t.capture.frame? id = some { f with matchSet := 0, pins := 1,
                                                place := if limit then .detached else .inHistory }
          ∧ (limit → t.capture.hist = s.capture.hist ∧ t.lines[i].counters = l.counters)
          ∧ (¬ limit → id ∈ t.capture.hist[i] ∧ t.lines[i].counters = { l.counters with kept := l.counters.kept + 1 })
      else
        t.inc.table = s.inc.table.set k (some { n with
            state := .queued, closeReason := some .full, postTimer := none })
          ∧ t.inc.queue = s.inc.queue ++ [k]
          ∧ (s.Queues 1 [6] → .incidentClosed n.id .full n.frames.length n.budget n.postFrames n.preTrimmed n.retried
              ∈ s.joined t)
          ∧ (limit → t.capture.frame? id = none)
          ∧ (¬ limit → t.capture.frame? id = some { f with matchSet := 0, pins := 0, place := .inHistory })

/-- TRIG_IN_RISING_EDGE is recorded when it comes 10 µs or more after the last accepted edge (edge to edge, log 15).
TRIG_IN_EDGE_ACCEPTED with one EXTERNAL entry that is enabled, free of an after-condition and of a holdoff, and a free
slot: the entry matches, its holdoff begins, and an incident of source EXTERNAL opens with its pre-window pinned (R75,
R77), with INCIDENT_OPENED; without a free slot the request is missed, with TRIGGER_MISSED (R58). Its instants count
from the end of the 1 µs high time (log 3), and its slot is the lowest free one (log 24). -/
def Obligations.TrigInEdgesOpenIncidents : Prop :=
  (∀ s : State,
    (s.matcher.lastAccepted = none → exec .trigInRisingEdge s = .next { s with
        matcher := { s.matcher with risingEdge := some ⟨s.time.tod, s.time.elapsed⟩ } })
    ∧ (∀ p, s.matcher.lastAccepted = some p → exec .trigInRisingEdge s = .next { s with
        matcher := { s.matcher with
          risingEdge := if 10 ≤ (s.time.elapsed - p).toNat then some ⟨s.time.tod, s.time.elapsed⟩ else none } }))
  ∧ (∀ (s : State) (g : Edge) (e : Fin 16) (k : Fin 4),
    let b := s.matcher.entries[e].body
    s.framesPlaced → s.matcher.risingEdge = some g → b.kind = 3 → b.enabled = 1 → b.afterOn = 0 → b.action = 2 →
    s.matcher.entries[e].holdoffEnd = none → b.postTime ≠ 0 →
    (∀ d : Fin 16, d ≠ e → s.matcher.entries[d].body.enabled ≠ 1) → s.inc.freeSlot = some k → s.NothingToGrant →
    Completes .trigInEdgeAccepted s fun t =>
      (∃ n, t.inc.table[k] = some n
        ∧ s.Opened n e .external none none g.time (s.time.advanceTo (g.elapsed + 1)).elapsed ∧ n.budget ≤ 32624
        ∧ (∀ x, t.capture.frame? x = (s.capture.frame? x).map fun f =>
            if x ∈ n.frames then { f with pins := f.pins + 1 } else f)
        ∧ (s.Queues 1 [5] → s.joined t = n.openingNotices))
      ∧ t.capture = { s.capture with slots := t.capture.slots }
      ∧ t.inc.evtOut = true ∧ t.inc.opened = s.inc.opened ++ [k] ∧ t.inc.queue = s.inc.queue
      ∧ t.matcher.entries[e].lastMatch = some g.time
      ∧ t.matcher.entries[e].count = s.matcher.entries[e].count + 1
      ∧ t.matcher.entries[e].holdoffEnd = (if b.holdoff = 0 then none
          else some ((s.time.advanceTo (g.elapsed + 1)).elapsed + BitVec.ofNat 48 (b.holdoff.toNat * 1000)))
      ∧ (∀ d : Fin 16, d ≠ e → t.matcher.entries[d] = s.matcher.entries[d])
      ∧ t.matcher.lastAccepted = some g.elapsed ∧ t.matcher.missed = s.matcher.missed
      ∧ t.lines = s.lines ∧ t.store = s.store ∧ t.records = s.records)
  ∧ (∀ (s : State) (g : Edge) (e : Fin 16),
    let b := s.matcher.entries[e].body
    s.matcher.risingEdge = some g → b.kind = 3 → b.enabled = 1 → b.afterOn = 0 → b.action = 2 →
    s.matcher.entries[e].holdoffEnd = none → (∀ d : Fin 16, d ≠ e → s.matcher.entries[d].body.enabled ≠ 1) →
    (∀ k : Fin 4, s.inc.table[k] ≠ none) → s.NothingToGrant → Completes .trigInEdgeAccepted s fun t =>
      t.matcher.missed = s.matcher.missed + 1 ∧ t.matcher.entries[e].lastMatch = some g.time
      ∧ t.matcher.entries[e].holdoffEnd = none ∧ t.inc = s.inc.evaluated ∧ t.capture = s.capture
      ∧ (s.Queues 1 [4] → s.joined t = [.triggerMissed e .external none g.time (s.matcher.missed + 1)]))

/-- HOLDOFF_EXPIRY makes the holdoff end absent; POST_TIMER_EXPIRY closes the incident with reason TIME, at the tail of
the commit queue, with INCIDENT_CLOSED. Both clocks stand at the expiry point afterwards (log 3). -/
def Obligations.ExpiriesEndHoldoffsAndCloseIncidents : Prop :=
  (∀ (e : Fin 16) (s : State) (p : Stamp), s.matcher.entries[e].holdoffEnd = some p →
      exec (.holdoffExpiry e) s = .next { s with
        time := s.time.advanceTo p
        matcher := { s.matcher with
          entries := s.matcher.entries.set e { s.matcher.entries[e] with holdoffEnd := none } } })
  ∧ (∀ (k : Fin 4) (s : State) (n : Incident) (p : Stamp), s.inc.table[k] = some n → n.postTimer = some p →
      s.arrayIdle = false → Completes (.postTimerExpiry k) s fun t =>
        t.inc = Incidents.evaluated { s.inc with
          queue := s.inc.queue ++ [k]
          table := s.inc.table.set k
            (some { n with state := .queued, closeReason := some .time, postTimer := none }) }
        ∧ t = { s with
            time := s.time.advanceTo p, inc := t.inc
            link := s.link.notify (s.time.advanceTo p).tod
              (.incidentClosed n.id .time n.frames.length n.budget n.postFrames n.preTrimmed n.retried)
            freeKey := t.freeKey })

/-! ### Incidents -/

/-- FORCE_TRIGGER: BAD_ARGUMENT for an entry that cannot fire, NO_ROOM without a free slot, and otherwise an incident
of source FORCED with the next id, in the lowest free slot (log 24), its pre-window pinned (R75, R77), with
INCIDENT_OPENED, and INCIDENT_CLOSED when it closes at once (R83); no runtime field of the entry changes. -/
def Obligations.ForceTriggerOpensOrRefuses : Prop :=
  ∀ (tag entry : Byte) (e : Fin 16) (s : State), entryOf entry = some e → s.Executing (.forceTrigger tag entry) →
    let b := s.matcher.entries[e].body
    (b.kind ≠ 3 ∧ ¬ ((b.kind = 1 ∨ b.kind = 2) ∧ b.action = 2) → Completes (.forceTrigger tag entry) s fun t =>
        s.OnlyLink t ∧ s.Answered t (.forceTrigger tag entry) .badArgument [])
    ∧ (b.kind = 3 ∨ ((b.kind = 1 ∨ b.kind = 2) ∧ b.action = 2) → (∀ k : Fin 4, s.inc.table[k] ≠ none) →
        Completes (.forceTrigger tag entry) s fun t =>
          s.OnlyLink t ∧ s.Answered t (.forceTrigger tag entry) .noRoom [])
    ∧ (∀ k, b.kind = 3 ∨ ((b.kind = 1 ∨ b.kind = 2) ∧ b.action = 2) → s.inc.freeSlot = some k → s.arrayIdle = false →
        s.framesPlaced →
        Completes (.forceTrigger tag entry) s fun t =>
          t.Carries (.forceTrigger tag entry) .ok (encLE 2 (freshId s.inc.ids 4 s.inc.idCounter))
            ∧ (∃ n, t.inc.table[k] = some n ∧ s.Opened n e .forced none none s.time.tod s.time.elapsed
                ∧ n.budget ≤ 32624
                ∧ (∀ x, t.capture.frame? x = (s.capture.frame? x).map fun f =>
                    if x ∈ n.frames then { f with pins := f.pins + 1 } else f)
                ∧ (s.Queues 2 [5, 6] → s.joined t = n.openingNotices))
            ∧ t.capture = { s.capture with slots := t.capture.slots }
            ∧ t.matcher = s.matcher ∧ t.lines = s.lines ∧ t.store = s.store ∧ t.records = s.records
            ∧ t.time = s.time)

/-- CLOSE_INCIDENT: NOT_FOUND, WRONG_STATE, or closed with reason HOST and INCIDENT_CLOSED. CANCEL_INCIDENT: NOT_FOUND,
CANCEL_PENDING on a COMMITTING incident, or the abandonment of any other: its slot free, out of the queue, every frame
unpinned, INCIDENT_LOST queued without a serial (R95). -/
def Obligations.CloseAndCancelEndIncidents : Prop :=
  (∀ (tag : Byte) (id : Half) (s : State), s.Executing (.closeIncident tag id) →
      (s.inc.slotOf id = none → Completes (.closeIncident tag id) s fun t =>
          s.OnlyLink t ∧ s.Answered t (.closeIncident tag id) .notFound [])
      ∧ (∀ k n, s.inc.slotOf id = some k → s.inc.table[k] = some n → n.state ≠ .collecting →
          Completes (.closeIncident tag id) s fun t =>
            s.OnlyLink t ∧ s.Answered t (.closeIncident tag id) .wrongState [])
      ∧ (∀ k n, s.inc.slotOf id = some k → s.inc.table[k] = some n → n.state = .collecting → s.arrayIdle = false →
          Completes (.closeIncident tag id) s fun t =>
            t.Carries (.closeIncident tag id) .ok []
              ∧ t.inc = Incidents.evaluated { s.inc with
                  queue := s.inc.queue ++ [k]
                  table := s.inc.table.set k
                    (some { n with state := .queued, closeReason := some .host, postTimer := none }) }
              ∧ (s.Queues 1 [6] → s.joined t =
                  [.incidentClosed n.id .host n.frames.length n.budget n.postFrames n.preTrimmed n.retried])
              ∧ t = { s with inc := t.inc, link := t.link, freeKey := t.freeKey }))
  ∧ (∀ (tag : Byte) (id : Half) (s : State), s.Executing (.cancelIncident tag id) →
      (s.inc.slotOf id = none → Completes (.cancelIncident tag id) s fun t =>
          s.OnlyLink t ∧ s.Answered t (.cancelIncident tag id) .notFound [])
      ∧ (∀ k n, s.inc.slotOf id = some k → s.inc.table[k] = some n → n.state = .committing →
          Completes (.cancelIncident tag id) s fun t =>
            t = { s with link := t.link, freeKey := t.freeKey
                         inc := { s.inc with table := s.inc.table.set k (some { n with cancelPending := true }) } }
              ∧ s.Answered t (.cancelIncident tag id) .accepted [])
      ∧ (∀ k n, s.inc.slotOf id = some k → s.inc.table[k] = some n → n.state ≠ .committing → s.arrayIdle = false →
          Completes (.cancelIncident tag id) s fun t =>
            t.Carries (.cancelIncident tag id) .ok [] ∧ t.inc.table = s.inc.table.set k none
              ∧ (s.Queues 1 [8] → .incidentLost n.id .cancelled n.state n.frames.length n.retried 0xFFFFFFFF#32
                  ∈ s.joined t)
              ∧ t.inc.queue = s.inc.queue.filter (· != k) ∧ t.inc.opened = s.inc.opened.filter (· != k)
              ∧ t.capture.slots = (n.frames.foldl Capture.unpin s.capture).slots
              ∧ t.capture.hist = s.capture.hist ∧ t.capture.handed = s.capture.handed ∧ t.matcher = s.matcher
              ∧ t.store = s.store ∧ t.time = s.time ∧ t.records.index = s.records.index))

/-! ### The retention store and the commit -/

/-- Programming only clears bits, and only inside the unit: the END and TIMEOUT rows, over every byte of the array. -/
def Obligations.ProgrammingOnlyClearsBits : Prop :=
  ∀ (c : Instr) (cells : List Byte) (s t : State), c = .programUnitEnd cells ∨ c = .programUnitTimeout cells →
    exec c s = .next t → ∀ (x : Fin 64) (a : Nat),
      (t.store.sectors[x].mem.read a) &&& (s.store.sectors[x].mem.read a) = t.store.sectors[x].mem.read a
        ∧ ((∀ p, s.store.op = some (.program p) →
              p.sector ≠ x ∨ a < p.offset ∨ p.offset + p.bytes.length ≤ a) →
            t.store.sectors[x].mem.read a = s.store.sectors[x].mem.read a)

/-- What the arbiter grants (R107). Nothing on an array that is not idle. On an idle one: the head of the host work
list, its erase or its discard mark begun (R104, R109); without host work and without a commit to grant, the
background erase of the lowest sector with erase pending. The grant of a commit to the head incident (R125 to R129):
the record's place in the OPEN sector; else the OPEN sector closed, and the header of an ERASED sector, or under
OVERWRITE_OLDEST the erase of the oldest FULL sector, begun, with RECORDS_OVERWRITTEN (the index is in serial order,
R123); else the store-full mark with its reason, STORE_FULL, and the array left to background reclaim. -/
def Obligations.ArbiterGrantsInOrder : Prop :=
  (∀ s : State, s.arrayIdle = false → s.arbitrate = s)
  ∧ (∀ (s : State) (x : Fin 64) (rest : List WorkItem), s.arrayIdle = true → s.store.work = .erase x :: rest →
      s.arbitrate = { s with
        store := { s.store with work := rest }.erases .hostItem x .host s.time.elapsed })
  ∧ (∀ (s : State) (serial : Word) (x : Fin 64) (offset : Nat) (rest : List WorkItem), s.arrayIdle = true →
      s.store.work = .mark serial x offset :: rest →
      s.arbitrate = { s with store := { s.store with
        holder := some .hostItem, work := rest
        op := some (.program ⟨x, offset + 4, [0x0F], .mark, some serial, s.time.elapsed⟩) } })
  ∧ (∀ s : State, s.arrayIdle = true → s.store.work = [] → s.records.full ≠ none ∨ s.inc.queue = [] →
      s.arbitrate = { s with store := s.arbitrate.store }
        ∧ s.store.leftToReclaim s.arbitrate.store s.time.elapsed)
  ∧ (∀ (s : State) (k : Fin 4) (q : List (Fin 4)) (n : Incident), s.arrayIdle = true → s.store.work = [] →
    s.records.full = none → s.inc.queue = k :: q → s.inc.table[k] = some n →
    let size := 80 + n.budget
    let closed := match s.store.openSector with | some x => s.modSector x Sector.close | none => s
    let victim := fun (u : State) => if s.store.policy = .overwriteOldest then u.store.toOverwrite else none
    let gone := fun (y : Fin 64) => (s.records.index.filter fun e => e.sector == y).map fun e => e.serial
    let overwrites := fun y => s.arbitrate.inc = s.inc
      ∧ s.arbitrate.link = s.link.notify s.time.tod (.recordsOverwritten y (gone y).length
          ((gone y).head?.getD 0xFFFFFFFF#32) ((gone y).getLast?.getD 0xFFFFFFFF#32))
      ∧ s.arbitrate.records.index = s.records.index.filter (fun e => e.sector != y)
      ∧ s.arbitrate.store.holder = some .commit ∧ s.arbitrate.store.sectors[(y : Fin 64)].state = .erasing
      ∧ s.arbitrate.store.sectors[y].eraseComplete = false
      ∧ s.arbitrate.store.op = some (.erase ⟨y, .overwrite, 0, some s.time.elapsed⟩)
    let marks := fun (u : State) (r : FullReason) =>
      s.arbitrate.records = { s.records with full := some r, commit := none } ∧ s.arbitrate.inc = s.inc
        ∧ u.store.leftToReclaim s.arbitrate.store s.time.elapsed ∧ s.arbitrate.link = s.link.notify s.time.tod
            (.storeFull r n.id size s.store.policy s.records.index.length u.store.erasedUnlocked)
    let hasRoom := fun x => s.store.openSector = some x ∧ size ≤ 32768 - (s.store.sectors[x].fillOffset).getD 32768
    (s.records.nextSerial = 0xFFFFFFFF#32 → marks s .serials)
    ∧ (s.records.nextSerial ≠ 0xFFFFFFFF#32 → 1024 ≤ s.records.index.length →
        (∀ y, victim s = some y → overwrites y) ∧ (victim s = none → marks s .index))
    ∧ (s.records.nextSerial ≠ 0xFFFFFFFF#32 → s.records.index.length < 1024 →
        (∀ x, hasRoom x → s.arbitrate.inc = { s.inc with
              queue := s.inc.queue.filter (· != k)
              table := s.inc.table.set k (some { n with state := .committing, serial := some s.records.nextSerial }) }
          ∧ s.arbitrate.records.nextSerial = s.records.nextSerial + 1
          ∧ s.arbitrate.store.holder = some .commit ∧ s.arbitrate.store.sectors = s.store.sectors
          ∧ ∃ p, s.arbitrate.store.op = some (.program p) ∧ p.sector = x ∧ p.cause = .commit
            ∧ p.serial = some s.records.nextSerial ∧ p.offset = (s.store.sectors[x].fillOffset).getD 0
            ∧ p.bytes.length ≤ 64 ∧ p.bytes <+: recordHeader stateBegun
                { n with state := .committing, serial := some s.records.nextSerial } s.records.nextSerial size)
        ∧ (∀ y, (¬ ∃ x, hasRoom x) → closed.store.toOpen = some y →
          s.arbitrate.inc = s.inc ∧ s.arbitrate.records.index = s.records.index
            ∧ s.arbitrate.store.sectors = closed.store.sectors ∧ s.arbitrate.store.holder = some .commit
            ∧ s.arbitrate.store.nextSeq = nextSequence s.store.nextSeq
            ∧ s.arbitrate.store.op = some (.program
                ⟨y, 0, sectorHeader s.store.nextSeq, .commit, none, s.time.elapsed⟩))
        ∧ (∀ y, (¬ ∃ x, hasRoom x) → closed.store.toOpen = none → victim closed = some y → overwrites y)
        ∧ ((¬ ∃ x, hasRoom x) → closed.store.toOpen = none → victim closed = none → marks closed .sector)))

/-- PROGRAM_UNIT_END of a sector header (R127), its incident not cancelled, and the re-check at that event (R125): a
passing one leaves the sector OPEN, the record at its body's start and the incident COMMITTING under the next serial,
its first unit begun, or waiting for a record read (R102, log 18). A failing one leaves it DIRTY with STORE_FAULT, and
another ERASED sector's header is begun; without one and under STOP the commit ends with the store-full mark, read or
no read. -/
def Obligations.HeaderUnitOpensOrSpoils : Prop :=
  ∀ (s : State) (p : ProgramOp) (cells : List Byte) (c : Commit) (x : Fin 64) (seq : Word) (k : Fin 4) (n : Incident),
    let taken := { n with state := .committing, serial := some s.records.nextSerial }
    let other := (s.modSector x Sector.spoilt).store.toOpen
    let faults := { s.store.faults with programFail := true }
    let fault := s.link.notify s.time.tod (.storeFault true p.sector p.offset .commit (p.serial.getD 0xFFFFFFFF#32) faults)
    s.store.op = some (.program p) → p.cause = .commit → (s.time.elapsed - p.since).toNat ≤ 3000 →
    s.store.holder = some .commit → s.records.commit = some c → c.incident = some k →
    c.phase = .reservation (some (x, seq)) → p.sector = x → s.inc.table[k] = some n → 80 ≤ c.size → c.size ≤ 32704 →
    (∀ y : Fin 64, s.store.sectors[y].state ≠ .opened) → s.records.nextSerial ≠ 0xFFFFFFFF#32 →
    s.records.index.length < 1024 →
    (s.UnitPasses p cells → Completes (.programUnitEnd cells) s fun t =>
      t.inc = Incidents.evaluated { s.inc with
          queue := s.inc.queue.filter (· != k), table := s.inc.table.set k (some taken) }
        ∧ t.records.nextSerial = s.records.nextSerial + 1 ∧ t.records.index = s.records.index
        ∧ t.store.holder = some .commit ∧ t.store.nextSeq = s.store.nextSeq ∧ t.store.faults = s.store.faults
        ∧ t.store.sectors[x] = { s.store.sectors[x] with
            mem := t.store.sectors[x].mem, state := .opened, seq := some seq, fillOffset := some 64, live := 0, dead := 0 }
        ∧ (∀ y : Fin 64, y ≠ x → t.store.sectors[y] = s.store.sectors[y])
        ∧ (s.store.read = none → t.store.op = some (.program ⟨x, 64, recordHeader stateBegun taken s.records.nextSerial c.size,
            .commit, some s.records.nextSerial, s.time.elapsed⟩))
        ∧ (s.store.read ≠ none → t.store.op = none ∧ ∃ d, t.records.commit = some d ∧ d.waiting = true)
        ∧ t.link = s.link ∧ t.capture = s.capture ∧ t.lines = s.lines ∧ t.matcher = s.matcher ∧ t.time = s.time)
    ∧ (¬ s.UnitPasses p cells → ∀ y, other = some y → s.store.read = none → Completes (.programUnitEnd cells) s fun t =>
      t.store.sectors[x].state = .dirty
        ∧ (s.store.sectors[x].protection = .unlocked → t.store.sectors[x].pending = true)
        ∧ t.store.faults = faults ∧ t.link = fault ∧ t.inc = s.inc.evaluated ∧ t.store.holder = some .commit
        ∧ t.store.nextSeq = nextSequence s.store.nextSeq
        ∧ t.store.op = some (.program ⟨y, 0, sectorHeader s.store.nextSeq, .commit, none, s.time.elapsed⟩))
    ∧ (¬ s.UnitPasses p cells → other = none → c.policy = .stop → s.records.full = none →
      Completes (.programUnitEnd cells) s fun t =>
        t.records = { s.records with commit := none, full := some .sector } ∧ t.store.faults = faults
          ∧ t.inc = s.inc.evaluated
          ∧ t.link = fault.notify s.time.tod (.storeFull .sector n.id c.size s.store.policy s.records.index.length
              (s.modSector x Sector.spoilt).store.erasedUnlocked))

/-- The units of a commit in its programming phase, at the end of each. A passing unit of the record is followed at
that event by the cancellation mark when CANCEL_PENDING is set, and otherwise by the next unit, or the state unit
behind the last, each after a waiting record read (R132, R133, R135). A passing cancellation mark ends the incident
CANCELLED, its record dead bytes. A failing unit sets PROGRAM_FAIL, closes the sector and ends the commit: the
incident is abandoned when it was to be cancelled or has been retried, and otherwise QUEUED at the head with RETRIED
(R92, R134). A discard mark's timeout is a fault that closes an OPEN sector (R109, R115). The arbiter acts last
(R107). -/
def Obligations.CommitUnitsGoOnFailOrCancel : Prop :=
  (∀ (s : State) (p : ProgramOp) (c : Commit) (g : Programming) (k : Fin 4) (n : Incident) (cells : List Byte)
      (len : Nat), s.Programs p c g k n → g.unit = .record len → (s.time.elapsed - p.since).toNat ≤ 3000 →
    s.UnitPasses p cells →
    let done := g.done + len
    let image := s.capture.recordImage n g.serial c.size
    let begins := fun (t : State) (u : UnitKind) (offset : Nat) (bytes : List Byte) =>
      t.records = { s.records with commit := some { c with
          waiting := false, phase := .programming { g with done := done, units := g.units + 1, unit := u } } }
        ∧ t.store.op = some (.program ⟨g.sector, offset, bytes, .commit, some g.serial, s.time.elapsed⟩)
    Completes (.programUnitEnd cells) s fun t =>
      t.inc = s.inc.evaluated ∧ t.link = s.link ∧ t.capture = s.capture ∧ t.store.holder = some .commit
        ∧ (s.store.read ≠ none → t.store.op = none ∧ t.records = { s.records with commit := some { c with
            waiting := true, phase := .programming { g with done := done, units := g.units + 1 } } })
        ∧ (s.store.read = none →
            if n.cancelPending = true then begins t .cancel (g.offset + 4) [0x0F]
            else if done < c.size then
              begins t (.record (unitLength g.offset done c.size)) (g.offset + done)
                ((image.drop done).take (unitLength g.offset done c.size))
            else begins t .complete (g.offset + 4) [0x3F]))
  ∧ (∀ (s : State) (p : ProgramOp) (c : Commit) (g : Programming) (k : Fin 4) (n : Incident) (cells : List Byte),
    s.Programs p c g k n → g.unit = .cancel → (s.time.elapsed - p.since).toNat ≤ 3000 → s.UnitPasses p cells →
    ∃ u : State, exec (.programUnitEnd cells) s = .next u.arbitrate
      ∧ u.inc.table = s.inc.table.set k none ∧ u.records = { s.records with commit := none }
      ∧ u.store.holder = none ∧ u.store.op = none ∧ u.store.faults = s.store.faults
      ∧ u.store.sectors[g.sector] = { s.store.sectors[g.sector] with
          mem := u.store.sectors[g.sector].mem
          fillOffset := s.store.sectors[g.sector].fillOffset.map (· + c.size)
          dead := s.store.sectors[g.sector].dead + c.size }
      ∧ u.capture.slots = (n.frames.foldl Capture.unpin s.capture).slots
      ∧ (s.Queues 1 [8] → (s.link.notices ++ [⟨s.link.number, s.time.tod,
          .incidentLost n.id .cancelled n.state n.frames.length n.retried n.lostSerial⟩]) <+: u.link.notices))
  ∧ (∀ (s : State) (p : ProgramOp) (c : Commit) (g : Programming) (k : Fin 4) (n : Incident) (row : Instr),
    s.Programs p c g k n → s.UnitFails p row →
    let faults := { s.store.faults with programFail := true }
    let lost := fun (u : State) (why : AbandonReason) =>
      u.inc.table = s.inc.table.set k none ∧ u.inc.queue = s.inc.queue.filter (· != k)
        ∧ u.capture.slots = (n.frames.foldl Capture.unpin s.capture).slots
        ∧ (s.Queues 2 [8, 11] → (s.link.notices ++
            [⟨s.link.number, u.time.tod, .storeFault true p.sector p.offset .commit (p.serial.getD 0xFFFFFFFF#32) faults⟩,
             ⟨s.link.number + 1, u.time.tod,
               .incidentLost n.id why n.state n.frames.length n.retried n.lostSerial⟩]) <+: u.link.notices)
    ∃ u : State, exec row s = .next u.arbitrate
      ∧ u.records = { s.records with commit := none } ∧ u.store.holder = none ∧ u.store.op = none
      ∧ u.store.faults = faults ∧ u.store.sectors[g.sector].state ≠ .opened
      ∧ (if n.cancelPending = true ∨ g.unit = .cancel then lost u .cancelled
         else if n.retried = true then lost u .storeFault
         else u.inc = Incidents.evaluated { s.inc with
               queue := k :: s.inc.queue, table := s.inc.table.set k (some { n with state := .queued, retried := true }) }
           ∧ u.capture = s.capture
           ∧ (s.Queues 1 [11] → (s.link.notices ++ [⟨s.link.number, u.time.tod,
               .storeFault true p.sector p.offset .commit (p.serial.getD 0xFFFFFFFF#32) faults⟩]) <+: u.link.notices)))
  ∧ (∀ (s : State) (p : ProgramOp) (cells : List Byte), s.store.op = some (.program p) → p.cause = .mark →
    ∃ u : State, exec (.programUnitTimeout cells) s = .next u.arbitrate
      ∧ u.store.faults = { s.store.faults with programFail := true } ∧ u.time = s.time.advanceTo (p.since + 3000)
      ∧ u.store.sectors[p.sector].state ≠ .opened ∧ u.store.op = none ∧ u.store.holder = none
      ∧ (s.Queues 1 [11] → u.link.notices = s.link.notices ++ [⟨s.link.number, u.time.tod,
          .storeFault true p.sector p.offset .mark (p.serial.getD 0xFFFFFFFF#32) u.store.faults⟩])
      ∧ u.records = s.records ∧ u.lines = s.lines ∧ u.capture = s.capture)

/-- PROGRAM_UNIT_END of a passing state unit: the commit succeeds at that one event, with INCIDENT_RETAINED (R95). -/
def Obligations.StateUnitRetainsTheIncident : Prop :=
  ∀ (s : State) (p : ProgramOp) (c : Commit) (g : Programming) (k : Fin 4) (n : Incident),
    s.store.op = some (.program p) → p.cause = .commit → (s.time.elapsed - p.since).toNat ≤ 3000 →
    s.records.commit = some c → c.incident = some k → c.phase = .programming g → g.unit = .complete →
    s.inc.table[k] = some n → s.store.work = [] → s.inc.queue = [] →
    (∀ x : Fin 64, s.store.sectors[x].pending = false) → Completes (.programUnitEnd []) s fun t =>
      t.inc.table = s.inc.table.set k none
        ∧ t.records.index = s.records.index ++ [indexEntryOf n g c.size]
        ∧ t.records.nextSerial = s.records.nextSerial ∧ t.records.commit = none
        ∧ t.store.holder = none ∧ t.store.op = none
        ∧ t.store.sectors[g.sector].live = s.store.sectors[g.sector].live + 1
        ∧ t.store.sectors[g.sector].fillOffset = (s.store.sectors[g.sector].fillOffset).map (· + c.size)
        ∧ t.store.sectors[g.sector].dead = s.store.sectors[g.sector].dead
        ∧ t.capture.slots = (n.frames.foldl Capture.unpin s.capture).slots ∧ t.store.faults = s.store.faults
        ∧ (s.Queues 1 [7] → .incidentRetained n.id g.serial g.sector g.offset c.size n.frames.length n.closeReason
            n.preTrimmed n.retried ∈ s.joined t)

/-- ERASE_END of a host or background erase with no work waiting: ERASED and blank with the store-full mark cleared,
or RETIRED with ERASE_FAIL. ERASE_TIMEOUT of one: RETIRED, with STORE_FAULT before ERASE_DONE, both clocks at
the limit (log 3). The erase status is complete after a blank verify alone (R139). -/
def Obligations.EraseEndsSettleTheSector : Prop :=
  (∀ (s : State) (e : EraseOp) (since : Stamp) (blank : Bool), s.store.op = some (.erase e) → e.since = some since →
      e.active + (s.time.elapsed - since).toNat ≤ 250000 → e.cause ≠ .overwrite → s.store.work = [] →
      s.inc.queue = [] → (∀ x : Fin 64, s.store.sectors[x].pending = false) →
      Completes (.eraseEnd blank) s fun t =>
        (if blank = true then
          t.store.sectors[e.sector] = { s.store.sectors[e.sector] with
              mem := ⟨.blank, []⟩, eraseComplete := true, state := .erased, seq := none, live := 0, dead := 0 }
            ∧ t.records = { s.records with full := none } ∧ t.store.faults = s.store.faults
         else
          t.store.sectors[e.sector] = { s.store.sectors[e.sector] with
              mem := t.store.sectors[e.sector].mem, state := .retired, seq := none, live := 0, dead := 0 }
            ∧ t.records = s.records ∧ t.store.faults = { s.store.faults with eraseFail := true })
          ∧ t.store.op = none ∧ t.store.holder = none
          ∧ (∀ x : Fin 64, x ≠ e.sector → t.store.sectors[x] = s.store.sectors[x])
          ∧ t.lines = s.lines ∧ t.capture = s.capture ∧ t.matcher = s.matcher ∧ t.inc = s.inc ∧ t.time = s.time)
  ∧ (∀ (s : State) (e : EraseOp) (since : Stamp), s.store.op = some (.erase e) → e.since = some since →
      e.cause ≠ .overwrite → s.store.work = [] → s.inc.queue = [] →
      (∀ x : Fin 64, s.store.sectors[x].pending = false) → s.link.tx ≠ none → s.link.notices.length < 15 →
      s.link.kindMask.getLsbD 11 = true → s.link.kindMask.getLsbD 12 = true → Completes .eraseTimeout s fun t =>
        t.store.sectors[e.sector].state = .retired ∧ t.store.sectors[e.sector].eraseComplete = s.store.sectors[e.sector].eraseComplete
          ∧ t.store.faults = { s.store.faults with eraseFail := true } ∧ t.store.op = none ∧ t.store.holder = none
          ∧ t.time = s.time.advanceTo (since + BitVec.ofNat 48 (250000 - e.active))
          ∧ t.link.notices = s.link.notices ++
              [⟨s.link.number, t.time.tod, .storeFault false e.sector 65535 e.cause 0xFFFFFFFF#32 t.store.faults⟩,
               ⟨s.link.number + 1, t.time.tod, .eraseDone e.sector false e.cause⟩]
          ∧ t.records = s.records ∧ t.lines = s.lines ∧ t.capture = s.capture ∧ t.inc = s.inc)

/-- SET_STORE_POLICY with the store READY and the array held: the policy replaced, the store-full mark cleared.
SET_PROTECTION with the store READY and the array held: PROTECTED, BUSY (for the sector of the item that holds the
array too, log 34), or the level takes effect, closing an OPEN sector at a lock and setting erase pending at an unlock
that makes a reclaim candidate. -/
def Obligations.StoreRequestsOfPolicyAndProtection : Prop :=
  (∀ (tag policy : Byte) (s : State), policy.toNat ≤ 1 → s.store.state = .ready → s.store.holder ≠ none →
    s.Executing (.setStorePolicy tag policy) → Completes (.setStorePolicy tag policy) s fun t =>
      t = { s with link := t.link, freeKey := t.freeKey
                   store := { s.store with policy := if policy = 0 then .stop else .overwriteOldest }
                   records := { s.records with full := none } }
        ∧ s.Answered t (.setStorePolicy tag policy) .ok [])
  ∧ (∀ (tag sector level : Byte) (x : Fin 64) (l : Protection) (s : State), sectorOf sector = some x →
    protectionOf level = some l → s.store.state = .ready → s.store.holder ≠ none →
    s.Executing (.setProtection tag sector level) →
    let v := s.store.sectors[x]
    Completes (.setProtection tag sector level) s fun t =>
      if v.protection = .lockedDown ∧ l ≠ .lockedDown then
        s.OnlyLink t ∧ s.Answered t (.setProtection tag sector level) .prot []
      else if v.state = .erasing ∨ v.pending = true ∨ (s.store.work.any fun i => i.sector == x) = true
          ∨ s.store.itemHolds x = true ∨ s.commitSector x = true then
        s.OnlyLink t ∧ s.Answered t (.setProtection tag sector level) .busy []
      else
        t = { s with link := t.link, freeKey := t.freeKey, store := { s.store with sectors := t.store.sectors }
                     records := { s.records with
                       full := if v.protection = .locked ∧ l = .unlocked then none else s.records.full } }
          ∧ (∀ y : Fin 64, y ≠ x → t.store.sectors[y] = s.store.sectors[y])
          ∧ t.store.sectors[x].protection = l
          ∧ t.store.sectors[x].state = (if v.state = .opened ∧ v.protection = .unlocked ∧ l ≠ .unlocked then .full else v.state)
          ∧ t.store.sectors[x].mem = v.mem
          ∧ (v.protection ≠ .unlocked → l = .unlocked → (v.state = .dirty ∨ (v.state = .full ∧ v.live = 0)) →
              t.store.sectors[x].pending = true)
          ∧ s.Answered t (.setProtection tag sector level) .ok [l.code, t.store.sectors[x].state.code])

/-- ERASE_SECTOR with the store READY and the array held: PROTECTED; ACCEPTED with nothing added; BUSY; or ACCEPTED,
the item at the tail, its entries out of the index, erase pending, an OPEN sector closed. On an idle array without host
work the item is granted, and its erase begins, at that event (R107, R109). -/
def Obligations.EraseSectorChecksThenAdds : Prop :=
  (∀ (tag sector : Byte) (x : Fin 64) (s : State), sectorOf sector = some x → s.store.state = .ready →
    s.store.holder ≠ none → s.Executing (.eraseSector tag sector) →
    let v := s.store.sectors[x]
    Completes (.eraseSector tag sector) s fun t =>
      if v.protection ≠ .unlocked then s.OnlyLink t ∧ s.Answered t (.eraseSector tag sector) .prot []
      else if v.state = .erasing ∨ v.pending = true then
        s.OnlyLink t ∧ s.Answered t (.eraseSector tag sector) .accepted []
      else if s.commitSector x = true ∨ 8 ≤ s.store.work.length then
        s.OnlyLink t ∧ s.Answered t (.eraseSector tag sector) .busy []
      else
        t = { s with link := t.link, freeKey := t.freeKey
                     store := { s.store with sectors := t.store.sectors, work := s.store.work ++ [.erase x] }
                     records := { s.records with
                       full := none, index := s.records.index.filter fun r => r.sector != x } }
          ∧ (∀ y : Fin 64, y ≠ x → t.store.sectors[y] = s.store.sectors[y])
          ∧ t.store.sectors[x].pending = true ∧ t.store.sectors[x].live = 0 ∧ t.store.sectors[x].mem = v.mem
          ∧ t.store.sectors[x].state = (if v.state = .opened then .full else v.state)
          ∧ s.Answered t (.eraseSector tag sector) .accepted [])
  ∧ (∀ (tag sector : Byte) (x : Fin 64) (s : State), sectorOf sector = some x → s.arrayIdle = true →
    s.store.work = [] → s.Executing (.eraseSector tag sector) → s.store.sectors[x].protection = .unlocked →
    s.store.sectors[x].state ≠ .erasing → s.store.sectors[x].pending = false →
    Completes (.eraseSector tag sector) s fun t =>
      t = { s with link := t.link, freeKey := t.freeKey
                   store := { s.store with
                     sectors := t.store.sectors, holder := some .hostItem
                     op := some (.erase ⟨x, .host, 0, some s.time.elapsed⟩) }
                   records := { s.records with
                     full := none, index := s.records.index.filter fun r => r.sector != x } }
        ∧ (∀ y : Fin 64, y ≠ x → t.store.sectors[y] = s.store.sectors[y])
        ∧ t.store.sectors[x] = { s.store.sectors[x] with
            state := .erasing, pending := false, fillOffset := none, live := 0, eraseComplete := false
            dead := t.store.sectors[x].dead }
        ∧ s.Answered t (.eraseSector tag sector) .accepted [])

/-! ### Records -/

/-- DISCARD_RECORD with the store READY and the array held: NOT_FOUND, PROTECTED, BUSY, or the entry out of the index,
the mark item at the tail, live and dead settled, the store-full mark cleared. On an idle array without host work the
item is granted, and its program unit begins, at that event (R107, R109). -/
def Obligations.DiscardRecordChecksThenAdds : Prop :=
  (∀ (tag : Byte) (serial : Word) (s : State), s.store.state = .ready → s.store.holder ≠ none →
    s.Executing (.discardRecord tag serial) → Completes (.discardRecord tag serial) s fun t =>
      match s.records.index.find? fun e => e.serial == serial with
      | none => s.OnlyLink t ∧ s.Answered t (.discardRecord tag serial) .notFound []
      | some e =>
        let v := s.store.sectors[e.sector]
        if v.protection ≠ .unlocked then s.OnlyLink t ∧ s.Answered t (.discardRecord tag serial) .prot []
        else if 8 ≤ s.store.work.length then s.OnlyLink t ∧ s.Answered t (.discardRecord tag serial) .busy []
        else
          t = { s with link := t.link, freeKey := t.freeKey
                       store := { s.store with
                         sectors := t.store.sectors, work := s.store.work ++ [.mark e.serial e.sector e.offset] }
                       records := { s.records with
                         full := none, index := s.records.index.filter fun d => d.serial != e.serial } }
            ∧ (∀ y : Fin 64, y ≠ e.sector → t.store.sectors[y] = s.store.sectors[y])
            ∧ t.store.sectors[e.sector].live = v.live - 1 ∧ t.store.sectors[e.sector].dead = v.dead + e.length
            ∧ t.store.sectors[e.sector].state = v.state
            ∧ (v.state = .full → v.live = 1 → t.store.sectors[e.sector].pending = true)
            ∧ s.Answered t (.discardRecord tag serial) .accepted [])
  ∧ (∀ (tag : Byte) (serial : Word) (e : IndexEntry) (s : State), s.arrayIdle = true → s.store.work = [] →
    s.Executing (.discardRecord tag serial) → (s.records.index.find? fun d => d.serial == serial) = some e →
    s.store.sectors[e.sector].protection = .unlocked → Completes (.discardRecord tag serial) s fun t =>
      t = { s with link := t.link, freeKey := t.freeKey
                   store := { s.store with
                     sectors := t.store.sectors, holder := some .hostItem
                     op := some (.program ⟨e.sector, e.offset + 4, [0x0F], .mark, some e.serial, s.time.elapsed⟩) }
                   records := { s.records with
                     full := none, index := s.records.index.filter fun d => d.serial != e.serial } }
        ∧ (∀ y : Fin 64, y ≠ e.sector → t.store.sectors[y] = s.store.sectors[y])
        ∧ t.store.sectors[e.sector].live = s.store.sectors[e.sector].live - 1
        ∧ t.store.sectors[e.sector].dead = s.store.sectors[e.sector].dead + e.length
        ∧ t.store.sectors[e.sector].state = s.store.sectors[e.sector].state
        ∧ t.store.sectors[e.sector].mem = s.store.sectors[e.sector].mem
        ∧ s.Answered t (.discardRecord tag serial) .accepted [])

/-- READ_RECORD and VERIFY_RECORD of an indexed record: their read begins, an active erase is suspended (at once, log
17), and the handler stays EXECUTING. ARRAY_READ_DONE with no work waiting: the reply carries the fields of R166 or
R169 at their places (R190), read off the record's bytes, and a suspended erase goes on. The bytes that the header CRC
covers (log 20), the width of a walk index and its FFFFh when WHOLE (log 21) are the model's reading; the index of a
walk whose end alone is wrong is open (log 23). -/
def Obligations.RecordReadsAreServed : Prop :=
  (∀ (tag : Byte) (serial : Word) (first : Half) (s : State) (e : IndexEntry), s.store.state = .ready →
    s.records.entryOf serial = some e →
    let suspended := s.store.op.map fun o => match o with
      | .erase a => .erase (match a.since with
        | some p => { a with active := a.active + (s.time.elapsed - p).toNat, since := none }
        | none => a)
      | .program p => .program p
    (s.Executing (.readRecord tag serial first) → first.toNat ≤ e.frameCount →
      exec (.readRecord tag serial first) s = .next { s with
        store := { s.store with read := some (.read e first.toNat), op := suspended } })
    ∧ (s.Executing (.readRecord tag serial first) → e.frameCount < first.toNat →
      Completes (.readRecord tag serial first) s fun t =>
        s.OnlyLink t ∧ s.Answered t (.readRecord tag serial first) .badArgument [])
    ∧ (s.Executing (.verifyRecord tag serial) →
      exec (.verifyRecord tag serial) s = .next { s with
        store := { s.store with read := some (.verify e), op := suspended } }))
  ∧ (∀ (i : Instr) (s : State) (job : ReadJob), s.store.read = some job → s.link.handler = .executing (reqOf i) →
    s.store.programming = false → s.records.commit = none → s.store.work = [] → s.inc.queue = [] →
    (∀ x : Fin 64, s.store.sectors[x].pending = false) → Completes .arrayReadDone s fun t =>
      t = { s with link := t.link, freeKey := t.freeKey
                   store := { s.store with read := none, op := t.store.op } }
        ∧ (∀ e, s.store.op = some (.erase e) → e.since = none →
            t.store.op = some (.erase { e with since := some s.time.elapsed }))
        ∧ (s.store.op = none → t.store.op = none)
        ∧ (∀ e first, job = .read e first → ∃ data,
            e.readReplied first (s.store.sectors[e.sector].mem.readRange e.offset e.length) data
              ∧ s.Answered t i .ok data)
        ∧ (∀ e, job = .verify e → ∃ data,
            e.verifyReplied (s.store.sectors[e.sector].mem.readRange e.offset e.length) data
              ∧ s.Answered t i .ok data))

/-! ### The scan -/

/-- SCAN_FINISH over any array (R141 to R149), before the first grant. A blank sector whose erase is complete is
ERASED; one whose erase is not, or without a valid header, DIRTY; one with a valid header OPEN or FULL under the
sequence its header holds, OPEN only when UNLOCKED and of the highest sequence. The index holds at most 1024 entries
in rising serials below the next serial, each of a headed sector, and live counts are its. An array of blank sectors
alone leaves the index empty and both counters at 1. -/
def Obligations.ScanClassesAndRebuilds : Prop :=
  ∀ s : State, s.store.state = .scanning → s.memoriesCanonical = true →
    let head := fun x : Fin 64 => s.store.sectors[x].mem.readRange 0 64
    let blank := fun x : Fin 64 => ∀ a < 32768, s.store.sectors[x].mem.read a = 0xFF#8
    let valid := fun x : Fin 64 => (head x).take 4 = encLE 4 0x3C5A96C3#32 ∧ crcAt (head x) 8 = crc16 ((head x).take 8)
    let complete := fun x : Fin 64 => s.store.sectors[x].eraseComplete = true
    let sequence := fun x : Fin 64 => (decLE 4 ((head x).drop 4) : Word)
    ∃ u : State, exec .scanFinish s = .next u.arbitrate ∧ u.store.state = .ready
      ∧ (∀ x : Fin 64,
          let v := s.store.sectors[x]
          let w := u.store.sectors[x]
          w.mem = v.mem ∧ w.protection = v.protection ∧ w.eraseComplete = v.eraseComplete
            ∧ (complete x → blank x →
                w = { v with state := .erased, seq := none, fillOffset := none, live := 0, dead := 0, pending := false })
            ∧ (¬ complete x ∨ (¬ blank x ∧ ¬ valid x) →
                w = { v with state := .dirty, seq := none, fillOffset := none, live := 0, dead := 0
                             pending := v.protection == .unlocked })
            ∧ (complete x → valid x → w.seq = some (sequence x) ∧ (w.state = .opened ∨ w.state = .full)
                ∧ w.live = (u.records.index.filter fun e => e.sector == x).length
                ∧ (w.pending = true ↔ w.state = .full ∧ v.protection = .unlocked ∧ w.live = 0)
                ∧ (w.state = .opened → v.protection = .unlocked ∧ w.fillOffset ≠ none
                    ∧ ∀ y : Fin 64, complete y → valid y → sequence y ≤ sequence x)))
      ∧ u.records.index.length ≤ 1024
      ∧ u.records.index.Pairwise (fun a b => a.serial < b.serial)
      ∧ (∀ e ∈ u.records.index, e.serial < u.records.nextSerial ∧ complete e.sector ∧ valid e.sector)
      ∧ u.store.faults.programFail = s.store.faults.programFail ∧ u.store.faults.eraseFail = s.store.faults.eraseFail
      ∧ (s.store.faults.scanDamage = true → u.store.faults.scanDamage = true)
      ∧ (∀ x : Fin 64, complete x → head x ≠ List.replicate 64 0xFF#8 → ¬ valid x → u.store.faults.scanDamage = true)
      ∧ u.link = s.link.notify s.time.tod (.started s.store.scan.cause u.records.index.length u.store.scan.torn
          (u.store.countIn .erased) (u.store.countIn .opened) (u.store.countIn .full) (u.store.countIn .dirty)
          u.records.nextSerial u.store.faults)
      ∧ u.store.op = s.store.op ∧ u.store.holder = s.store.holder ∧ u.store.work = s.store.work
      ∧ u.lines = s.lines ∧ u.capture = s.capture ∧ u.matcher = s.matcher ∧ u.inc = s.inc ∧ u.time = s.time
      ∧ ((∀ x : Fin 64, complete x ∧ blank x) →
          u.records = { s.records with index := [], nextSerial := 1 } ∧ u.store.nextSeq = 1
            ∧ u.store.faults = s.store.faults)

/-- The walk of a sector's records over what a commit programs (R120 to R122, R142 to R144): a record as programmed,
with its state mark, of a serial above those seen, is indexed when COMPLETE by the entry its commit gave it (R123),
dead bytes when DISCARDED, and torn when BEGUN, which closes the sector at it. A blank tail ends the walk; a blank
header before bytes that are not blank closes the sector there, with damage. -/
def Obligations.ScanFindsTheRecordsCommitted : Prop :=
  (∀ (m : Memory) (x : Fin 64) (fuel at_ live dead : Nat) (w : ScanWork) (c : Capture) (n : Incident) (p : Programming)
      (mark : Byte),
    let size := (c.recordImage n p.serial (80 + n.budget)).length
    let seen := { w with highestSerial := some p.serial }
    size = 80 + n.budget → size % 4 = 0 → at_ + size ≤ 32768 → p.serial ≠ 0 → p.serial ≠ 0xFFFFFFFF#32 →
    (∀ h, w.highestSerial = some h → h < p.serial) → p.sector = x → p.offset = at_ → n.frames.length < 65536 →
    m.readRange at_ size = (c.recordImage n p.serial size).set 4 mark →
    (mark = 0x3F#8 → walkRecords m x (fuel + 1) at_ live dead w
        = walkRecords m x fuel (at_ + size) (live + 1) dead { seen with found := w.found ++ [indexEntryOf n p size] })
    ∧ (mark = 0x0F#8 → walkRecords m x (fuel + 1) at_ live dead w
        = walkRecords m x fuel (at_ + size) live (dead + size) seen)
    ∧ (mark = 0x7F#8 → walkRecords m x (fuel + 1) at_ live dead w
        = ({ seen with torn := w.torn + 1 }, ⟨at_, some at_, live, dead + (32768 - at_)⟩)))
  ∧ (∀ (m : Memory) (x : Fin 64) (fuel at_ live dead : Nat) (w : ScanWork), m.wf = true →
    ((∀ a, at_ ≤ a → a < 32768 → m.read a = 0xFF#8) →
      walkRecords m x fuel at_ live dead w = (w, ⟨at_, none, live, dead⟩))
    ∧ ((∀ a, at_ ≤ a → a < at_ + 64 → m.read a = 0xFF#8) → (∃ a, at_ ≤ a ∧ a < 32768 ∧ m.read a ≠ 0xFF#8) →
      walkRecords m x fuel at_ live dead w
        = ({ w with damage := true }, ⟨at_, some at_, live, dead + (32768 - at_)⟩)))

end
end

