-- ==== Sys2Proof/Laws/Lines.lean ====
section
/-! SUPPORT. What the terms for frames in reception and for pool pressure say, field by field. -/

namespace Sys2Proof.Machine

/-! ### The frame that begins, and how it is taken (R5) -/

theorem Line.fresh_stored (l : Line) (t : Timebase) (h : l.state ≠ .suspended) (g : l.state ≠ .shed) :
    (l.fresh t).taking = .stored := by
  unfold Line.fresh
  cases e : l.state <;> simp_all

@[simp] theorem Line.fresh_slot (l : Line) (t : Timebase) : (l.fresh t).slot = none := rfl
@[simp] theorem Line.fresh_count (l : Line) (t : Timebase) : (l.fresh t).count = 0 := rfl
@[simp] theorem Line.fresh_total (l : Line) (t : Timebase) : (l.fresh t).total = none := rfl
@[simp] theorem CurrentFrame.more_taking (c : CurrentFrame) (now : Stamp) (slot : Option Nat) (errored : Bool) :
    (c.more now slot errored).taking = c.taking := rfl
@[simp] theorem CurrentFrame.more_count (c : CurrentFrame) (now : Stamp) (slot : Option Nat) (errored : Bool) :
    (c.more now slot errored).count = c.count + 1 := rfl

/-! ### What a line keeps -/

@[simp] theorem Line.begun_cfg (l : Line) (t : Timebase) : (l.begun t).cfg = l.cfg := rfl
@[simp] theorem Line.begun_state (l : Line) (t : Timebase) : (l.begun t).state = l.state := rfl
@[simp] theorem Line.inside_state (l : Line) (c : CurrentFrame) : (l.inside c).state = l.state := rfl
@[simp] theorem Line.unheld_awaiting (l : Line) (c : CurrentFrame) : (l.unheld c).awaiting = l.awaiting := rfl

/-- A line in reception stays as it is but for its frame. -/
theorem Line.inside_receiving (l : Line) (c : CurrentFrame) (h : l.reception = .receiving) :
    l.inside c = { l with current := some c } := by
  cases l
  subst h
  rfl

/-- A stored frame that ends without a byte changes no counter (R9). -/
theorem Line.unheld_stored (l : Line) (c : CurrentFrame) (h : c.taking = .stored) :
    (l.unheld c).counters = l.counters := by
  simp [Line.unheld, h]

/-! ### Pool pressure (R18) -/

@[simp] theorem Line.pressed_unchanged (l : Line) (on : Bool) : l.pressed on on = l := if_pos rfl

theorem Line.pressed_cfg (l : Line) (before on : Bool) : (l.pressed before on).cfg = l.cfg := by
  unfold Line.pressed
  split
  · rfl
  · split
    · rfl
    · split <;> rfl

theorem State.pressureNotices_unchanged (s t : State) (h : t.capture.pressure = s.capture.pressure) :
    s.pressureNotices t = [] := if_pos h

/-! ### The byte that goes to its slot -/

theorem State.byteGoes_no_page (s : State) (i : Fin 8) (b : Byte) (h : s.capture.free = []) :
    s.byteGoes i none b = none := by
  simp [State.byteGoes, h]

theorem State.byteGoes_within_page (s : State) (i : Fin 8) (id : Nat) (f : Frame) (b : Byte)
    (h : s.capture.frame? id = some f) (g : f.length % 64 ≠ 0) :
    s.byteGoes i (some id) b = some (id, s.capture.stored id f b) := by
  simp [State.byteGoes, h, g]

end Sys2Proof.Machine
end

