-- ==== Sys2Proof/Laws/State.lean ====
section
/-! SUPPORT. One lemma per field per update of `State`: what an update leaves as it was, and what it sets. -/

namespace Sys2Proof.Machine

/-! ### Vectors -/

theorem vmap_get {α : Type} {n : Nat} (v : Vector α n) (f : Fin n → α → α) (i : Fin n) :
    (vmap v f)[i] = f i v[i] := by
  simp [vmap]

@[simp] theorem State.setLine_same (s : State) (i : Fin 8) (l : Line) : (s.setLine i l).lines[i] = l := by
  simp [State.setLine]

theorem State.setLine_other (s : State) (i j : Fin 8) (h : j ≠ i) (l : Line) :
    (s.setLine i l).lines[j] = s.lines[j] := by
  have : i.val ≠ j.val := fun e => h (Fin.ext e.symm)
  simp [State.setLine, this]

@[simp] theorem State.modLine_same (s : State) (i : Fin 8) (f : Line → Line) :
    (s.modLine i f).lines[i] = f s.lines[i] := State.setLine_same s i _

theorem State.modLine_other (s : State) (i j : Fin 8) (h : j ≠ i) (f : Line → Line) :
    (s.modLine i f).lines[j] = s.lines[j] := State.setLine_other s i j h _

@[simp] theorem State.modSector_same (s : State) (x : Fin 64) (f : Sector → Sector) :
    (s.modSector x f).store.sectors[x] = f s.store.sectors[x] := by
  simp [State.modSector, Store.modSector, Store.setSector]

theorem State.modSector_other (s : State) (x y : Fin 64) (h : y ≠ x) (f : Sector → Sector) :
    (s.modSector x f).store.sectors[y] = s.store.sectors[y] := by
  have : x.val ≠ y.val := fun e => h (Fin.ext e.symm)
  simp [State.modSector, Store.modSector, Store.setSector, this]

/-! ### A line that enters a state -/

@[simp] theorem Line.enter_state (l : Line) (st : LineState) : (l.enter st).state = st := rfl
@[simp] theorem Line.enter_cfg (l : Line) (st : LineState) : (l.enter st).cfg = l.cfg := rfl

/-- Every entry into SUSPENDED or SHED sets the attention flag (R20). -/
theorem Line.enter_attention (l : Line) (st : LineState) (h : st = .suspended ∨ st = .shed) :
    (l.enter st).attention = true := by
  rcases h with rfl | rfl <;> (unfold Line.enter; cases l.attention <;> rfl)

/-- Every other entry leaves it as it stood (R20). -/
theorem Line.enter_attention_other (l : Line) (st : LineState) (h : st ≠ .suspended) (g : st ≠ .shed) :
    (l.enter st).attention = l.attention := by
  unfold Line.enter
  cases st
  case suspended => exact (h rfl).elim
  case shed => exact (g rfl).elim
  all_goals cases l.attention <;> rfl

/-! ### setLine -/

@[simp] theorem State.setLine_capture (s : State) (i : Fin 8) (l : Line) : (s.setLine i l).capture = s.capture := rfl
@[simp] theorem State.setLine_matcher (s : State) (i : Fin 8) (l : Line) : (s.setLine i l).matcher = s.matcher := rfl
@[simp] theorem State.setLine_inc (s : State) (i : Fin 8) (l : Line) : (s.setLine i l).inc = s.inc := rfl
@[simp] theorem State.setLine_store (s : State) (i : Fin 8) (l : Line) : (s.setLine i l).store = s.store := rfl
@[simp] theorem State.setLine_records (s : State) (i : Fin 8) (l : Line) : (s.setLine i l).records = s.records := rfl
@[simp] theorem State.setLine_time (s : State) (i : Fin 8) (l : Line) : (s.setLine i l).time = s.time := rfl
@[simp] theorem State.setLine_link (s : State) (i : Fin 8) (l : Line) : (s.setLine i l).link = s.link := rfl
@[simp] theorem State.setLine_freeKey (s : State) (i : Fin 8) (l : Line) : (s.setLine i l).freeKey = s.freeKey := rfl
@[simp] theorem State.setLine_pending (s : State) (i : Fin 8) (l : Line) : (s.setLine i l).pending = s.pending := rfl

/-! ### modLine -/

@[simp] theorem State.modLine_capture (s : State) (i : Fin 8) (f : Line → Line) : (s.modLine i f).capture = s.capture := rfl
@[simp] theorem State.modLine_matcher (s : State) (i : Fin 8) (f : Line → Line) : (s.modLine i f).matcher = s.matcher := rfl
@[simp] theorem State.modLine_inc (s : State) (i : Fin 8) (f : Line → Line) : (s.modLine i f).inc = s.inc := rfl
@[simp] theorem State.modLine_store (s : State) (i : Fin 8) (f : Line → Line) : (s.modLine i f).store = s.store := rfl
@[simp] theorem State.modLine_records (s : State) (i : Fin 8) (f : Line → Line) : (s.modLine i f).records = s.records := rfl
@[simp] theorem State.modLine_time (s : State) (i : Fin 8) (f : Line → Line) : (s.modLine i f).time = s.time := rfl
@[simp] theorem State.modLine_link (s : State) (i : Fin 8) (f : Line → Line) : (s.modLine i f).link = s.link := rfl
@[simp] theorem State.modLine_freeKey (s : State) (i : Fin 8) (f : Line → Line) : (s.modLine i f).freeKey = s.freeKey := rfl
@[simp] theorem State.modLine_pending (s : State) (i : Fin 8) (f : Line → Line) : (s.modLine i f).pending = s.pending := rfl

/-! ### advanceTo -/

@[simp] theorem State.advanceTo_lines (s : State) (p : Stamp) : (s.advanceTo p).lines = s.lines := rfl
@[simp] theorem State.advanceTo_capture (s : State) (p : Stamp) : (s.advanceTo p).capture = s.capture := rfl
@[simp] theorem State.advanceTo_matcher (s : State) (p : Stamp) : (s.advanceTo p).matcher = s.matcher := rfl
@[simp] theorem State.advanceTo_inc (s : State) (p : Stamp) : (s.advanceTo p).inc = s.inc := rfl
@[simp] theorem State.advanceTo_store (s : State) (p : Stamp) : (s.advanceTo p).store = s.store := rfl
@[simp] theorem State.advanceTo_records (s : State) (p : Stamp) : (s.advanceTo p).records = s.records := rfl
@[simp] theorem State.advanceTo_link (s : State) (p : Stamp) : (s.advanceTo p).link = s.link := rfl
@[simp] theorem State.advanceTo_freeKey (s : State) (p : Stamp) : (s.advanceTo p).freeKey = s.freeKey := rfl
@[simp] theorem State.advanceTo_pending (s : State) (p : Stamp) : (s.advanceTo p).pending = s.pending := rfl

/-! ### modSector -/

@[simp] theorem State.modSector_lines (s : State) (x : Fin 64) (f : Sector → Sector) : (s.modSector x f).lines = s.lines := rfl
@[simp] theorem State.modSector_capture (s : State) (x : Fin 64) (f : Sector → Sector) : (s.modSector x f).capture = s.capture := rfl
@[simp] theorem State.modSector_matcher (s : State) (x : Fin 64) (f : Sector → Sector) : (s.modSector x f).matcher = s.matcher := rfl
@[simp] theorem State.modSector_inc (s : State) (x : Fin 64) (f : Sector → Sector) : (s.modSector x f).inc = s.inc := rfl
@[simp] theorem State.modSector_records (s : State) (x : Fin 64) (f : Sector → Sector) : (s.modSector x f).records = s.records := rfl
@[simp] theorem State.modSector_time (s : State) (x : Fin 64) (f : Sector → Sector) : (s.modSector x f).time = s.time := rfl
@[simp] theorem State.modSector_link (s : State) (x : Fin 64) (f : Sector → Sector) : (s.modSector x f).link = s.link := rfl
@[simp] theorem State.modSector_freeKey (s : State) (x : Fin 64) (f : Sector → Sector) : (s.modSector x f).freeKey = s.freeKey := rfl
@[simp] theorem State.modSector_pending (s : State) (x : Fin 64) (f : Sector → Sector) : (s.modSector x f).pending = s.pending := rfl

/-! ### setIncident -/

@[simp] theorem State.setIncident_lines (s : State) (k : Fin 4) (v : Option Incident) : (s.setIncident k v).lines = s.lines := rfl
@[simp] theorem State.setIncident_capture (s : State) (k : Fin 4) (v : Option Incident) : (s.setIncident k v).capture = s.capture := rfl
@[simp] theorem State.setIncident_matcher (s : State) (k : Fin 4) (v : Option Incident) : (s.setIncident k v).matcher = s.matcher := rfl
@[simp] theorem State.setIncident_store (s : State) (k : Fin 4) (v : Option Incident) : (s.setIncident k v).store = s.store := rfl
@[simp] theorem State.setIncident_records (s : State) (k : Fin 4) (v : Option Incident) : (s.setIncident k v).records = s.records := rfl
@[simp] theorem State.setIncident_time (s : State) (k : Fin 4) (v : Option Incident) : (s.setIncident k v).time = s.time := rfl
@[simp] theorem State.setIncident_link (s : State) (k : Fin 4) (v : Option Incident) : (s.setIncident k v).link = s.link := rfl
@[simp] theorem State.setIncident_freeKey (s : State) (k : Fin 4) (v : Option Incident) : (s.setIncident k v).freeKey = s.freeKey := rfl
@[simp] theorem State.setIncident_pending (s : State) (k : Fin 4) (v : Option Incident) : (s.setIncident k v).pending = s.pending := rfl

/-! ### notify -/

@[simp] theorem State.notify_lines (s : State) (n : Notice) : (s.notify n).lines = s.lines := rfl
@[simp] theorem State.notify_capture (s : State) (n : Notice) : (s.notify n).capture = s.capture := rfl
@[simp] theorem State.notify_matcher (s : State) (n : Notice) : (s.notify n).matcher = s.matcher := rfl
@[simp] theorem State.notify_inc (s : State) (n : Notice) : (s.notify n).inc = s.inc := rfl
@[simp] theorem State.notify_store (s : State) (n : Notice) : (s.notify n).store = s.store := rfl
@[simp] theorem State.notify_records (s : State) (n : Notice) : (s.notify n).records = s.records := rfl
@[simp] theorem State.notify_time (s : State) (n : Notice) : (s.notify n).time = s.time := rfl
@[simp] theorem State.notify_freeKey (s : State) (n : Notice) : (s.notify n).freeKey = s.freeKey := rfl
@[simp] theorem State.notify_pending (s : State) (n : Notice) : (s.notify n).pending = s.pending := rfl

/-! ### evalEvtOut -/

@[simp] theorem State.evalEvtOut_lines (s : State) : (s.evalEvtOut).lines = s.lines := rfl
@[simp] theorem State.evalEvtOut_capture (s : State) : (s.evalEvtOut).capture = s.capture := rfl
@[simp] theorem State.evalEvtOut_matcher (s : State) : (s.evalEvtOut).matcher = s.matcher := rfl
@[simp] theorem State.evalEvtOut_store (s : State) : (s.evalEvtOut).store = s.store := rfl
@[simp] theorem State.evalEvtOut_records (s : State) : (s.evalEvtOut).records = s.records := rfl
@[simp] theorem State.evalEvtOut_time (s : State) : (s.evalEvtOut).time = s.time := rfl
@[simp] theorem State.evalEvtOut_link (s : State) : (s.evalEvtOut).link = s.link := rfl
@[simp] theorem State.evalEvtOut_freeKey (s : State) : (s.evalEvtOut).freeKey = s.freeKey := rfl
@[simp] theorem State.evalEvtOut_pending (s : State) : (s.evalEvtOut).pending = s.pending := rfl

/-! ### append -/

@[simp] theorem State.append_matcher (s : State) (i : Fin 8) (id : Nat) : (s.append i id).matcher = s.matcher := rfl
@[simp] theorem State.append_inc (s : State) (i : Fin 8) (id : Nat) : (s.append i id).inc = s.inc := rfl
@[simp] theorem State.append_store (s : State) (i : Fin 8) (id : Nat) : (s.append i id).store = s.store := rfl
@[simp] theorem State.append_records (s : State) (i : Fin 8) (id : Nat) : (s.append i id).records = s.records := rfl
@[simp] theorem State.append_time (s : State) (i : Fin 8) (id : Nat) : (s.append i id).time = s.time := rfl
@[simp] theorem State.append_link (s : State) (i : Fin 8) (id : Nat) : (s.append i id).link = s.link := rfl
@[simp] theorem State.append_freeKey (s : State) (i : Fin 8) (id : Nat) : (s.append i id).freeKey = s.freeKey := rfl
@[simp] theorem State.append_pending (s : State) (i : Fin 8) (id : Nat) : (s.append i id).pending = s.pending := rfl

/-! ### dropClaim -/

@[simp] theorem State.dropClaim_matcher (s : State) (i : Fin 8) (id : Nat) : (s.dropClaim i id).matcher = s.matcher := rfl
@[simp] theorem State.dropClaim_inc (s : State) (i : Fin 8) (id : Nat) : (s.dropClaim i id).inc = s.inc := rfl
@[simp] theorem State.dropClaim_store (s : State) (i : Fin 8) (id : Nat) : (s.dropClaim i id).store = s.store := rfl
@[simp] theorem State.dropClaim_records (s : State) (i : Fin 8) (id : Nat) : (s.dropClaim i id).records = s.records := rfl
@[simp] theorem State.dropClaim_time (s : State) (i : Fin 8) (id : Nat) : (s.dropClaim i id).time = s.time := rfl
@[simp] theorem State.dropClaim_link (s : State) (i : Fin 8) (id : Nat) : (s.dropClaim i id).link = s.link := rfl
@[simp] theorem State.dropClaim_freeKey (s : State) (i : Fin 8) (id : Nat) : (s.dropClaim i id).freeKey = s.freeKey := rfl
@[simp] theorem State.dropClaim_pending (s : State) (i : Fin 8) (id : Nat) : (s.dropClaim i id).pending = s.pending := rfl

/-! ### endIncident -/

@[simp] theorem State.endIncident_lines (s : State) (k : Fin 4) (i : Incident) : (s.endIncident k i).lines = s.lines := rfl
@[simp] theorem State.endIncident_matcher (s : State) (k : Fin 4) (i : Incident) : (s.endIncident k i).matcher = s.matcher := rfl
@[simp] theorem State.endIncident_store (s : State) (k : Fin 4) (i : Incident) : (s.endIncident k i).store = s.store := rfl
@[simp] theorem State.endIncident_records (s : State) (k : Fin 4) (i : Incident) : (s.endIncident k i).records = s.records := rfl
@[simp] theorem State.endIncident_time (s : State) (k : Fin 4) (i : Incident) : (s.endIncident k i).time = s.time := rfl
@[simp] theorem State.endIncident_link (s : State) (k : Fin 4) (i : Incident) : (s.endIncident k i).link = s.link := rfl
@[simp] theorem State.endIncident_freeKey (s : State) (k : Fin 4) (i : Incident) : (s.endIncident k i).freeKey = s.freeKey := rfl
@[simp] theorem State.endIncident_pending (s : State) (k : Fin 4) (i : Incident) : (s.endIncident k i).pending = s.pending := rfl

/-! ### startUnit -/

@[simp] theorem State.startUnit_lines (s : State) (x : Fin 64) (o : Nat) (b : List Byte) (c : Cause) (n : Option Word) : (s.startUnit x o b c n).lines = s.lines := rfl
@[simp] theorem State.startUnit_capture (s : State) (x : Fin 64) (o : Nat) (b : List Byte) (c : Cause) (n : Option Word) : (s.startUnit x o b c n).capture = s.capture := rfl
@[simp] theorem State.startUnit_matcher (s : State) (x : Fin 64) (o : Nat) (b : List Byte) (c : Cause) (n : Option Word) : (s.startUnit x o b c n).matcher = s.matcher := rfl
@[simp] theorem State.startUnit_inc (s : State) (x : Fin 64) (o : Nat) (b : List Byte) (c : Cause) (n : Option Word) : (s.startUnit x o b c n).inc = s.inc := rfl
@[simp] theorem State.startUnit_records (s : State) (x : Fin 64) (o : Nat) (b : List Byte) (c : Cause) (n : Option Word) : (s.startUnit x o b c n).records = s.records := rfl
@[simp] theorem State.startUnit_time (s : State) (x : Fin 64) (o : Nat) (b : List Byte) (c : Cause) (n : Option Word) : (s.startUnit x o b c n).time = s.time := rfl
@[simp] theorem State.startUnit_link (s : State) (x : Fin 64) (o : Nat) (b : List Byte) (c : Cause) (n : Option Word) : (s.startUnit x o b c n).link = s.link := rfl
@[simp] theorem State.startUnit_freeKey (s : State) (x : Fin 64) (o : Nat) (b : List Byte) (c : Cause) (n : Option Word) : (s.startUnit x o b c n).freeKey = s.freeKey := rfl
@[simp] theorem State.startUnit_pending (s : State) (x : Fin 64) (o : Nat) (b : List Byte) (c : Cause) (n : Option Word) : (s.startUnit x o b c n).pending = s.pending := rfl

/-! ### startErase -/

@[simp] theorem State.startErase_lines (s : State) (x : Fin 64) (c : Cause) : (s.startErase x c).lines = s.lines := rfl
@[simp] theorem State.startErase_capture (s : State) (x : Fin 64) (c : Cause) : (s.startErase x c).capture = s.capture := rfl
@[simp] theorem State.startErase_matcher (s : State) (x : Fin 64) (c : Cause) : (s.startErase x c).matcher = s.matcher := rfl
@[simp] theorem State.startErase_inc (s : State) (x : Fin 64) (c : Cause) : (s.startErase x c).inc = s.inc := rfl
@[simp] theorem State.startErase_records (s : State) (x : Fin 64) (c : Cause) : (s.startErase x c).records = s.records := rfl
@[simp] theorem State.startErase_time (s : State) (x : Fin 64) (c : Cause) : (s.startErase x c).time = s.time := rfl
@[simp] theorem State.startErase_link (s : State) (x : Fin 64) (c : Cause) : (s.startErase x c).link = s.link := rfl
@[simp] theorem State.startErase_freeKey (s : State) (x : Fin 64) (c : Cause) : (s.startErase x c).freeKey = s.freeKey := rfl
@[simp] theorem State.startErase_pending (s : State) (x : Fin 64) (c : Cause) : (s.startErase x c).pending = s.pending := rfl

/-! ### programFault -/

@[simp] theorem State.programFault_lines (s : State) (p : ProgramOp) : (s.programFault p).lines = s.lines := rfl
@[simp] theorem State.programFault_capture (s : State) (p : ProgramOp) : (s.programFault p).capture = s.capture := rfl
@[simp] theorem State.programFault_matcher (s : State) (p : ProgramOp) : (s.programFault p).matcher = s.matcher := rfl
@[simp] theorem State.programFault_inc (s : State) (p : ProgramOp) : (s.programFault p).inc = s.inc := rfl
@[simp] theorem State.programFault_records (s : State) (p : ProgramOp) : (s.programFault p).records = s.records := rfl
@[simp] theorem State.programFault_time (s : State) (p : ProgramOp) : (s.programFault p).time = s.time := rfl
@[simp] theorem State.programFault_freeKey (s : State) (p : ProgramOp) : (s.programFault p).freeKey = s.freeKey := rfl
@[simp] theorem State.programFault_pending (s : State) (p : ProgramOp) : (s.programFault p).pending = s.pending := rfl

/-! ### eraseFault -/

@[simp] theorem State.eraseFault_lines (s : State) (e : EraseOp) : (s.eraseFault e).lines = s.lines := rfl
@[simp] theorem State.eraseFault_capture (s : State) (e : EraseOp) : (s.eraseFault e).capture = s.capture := rfl
@[simp] theorem State.eraseFault_matcher (s : State) (e : EraseOp) : (s.eraseFault e).matcher = s.matcher := rfl
@[simp] theorem State.eraseFault_inc (s : State) (e : EraseOp) : (s.eraseFault e).inc = s.inc := rfl
@[simp] theorem State.eraseFault_records (s : State) (e : EraseOp) : (s.eraseFault e).records = s.records := rfl
@[simp] theorem State.eraseFault_time (s : State) (e : EraseOp) : (s.eraseFault e).time = s.time := rfl
@[simp] theorem State.eraseFault_freeKey (s : State) (e : EraseOp) : (s.eraseFault e).freeKey = s.freeKey := rfl
@[simp] theorem State.eraseFault_pending (s : State) (e : EraseOp) : (s.eraseFault e).pending = s.pending := rfl

/-! ### clearFull -/

@[simp] theorem State.clearFull_lines (s : State) : (s.clearFull).lines = s.lines := rfl
@[simp] theorem State.clearFull_capture (s : State) : (s.clearFull).capture = s.capture := rfl
@[simp] theorem State.clearFull_matcher (s : State) : (s.clearFull).matcher = s.matcher := rfl
@[simp] theorem State.clearFull_inc (s : State) : (s.clearFull).inc = s.inc := rfl
@[simp] theorem State.clearFull_store (s : State) : (s.clearFull).store = s.store := rfl
@[simp] theorem State.clearFull_time (s : State) : (s.clearFull).time = s.time := rfl
@[simp] theorem State.clearFull_link (s : State) : (s.clearFull).link = s.link := rfl
@[simp] theorem State.clearFull_freeKey (s : State) : (s.clearFull).freeKey = s.freeKey := rfl
@[simp] theorem State.clearFull_pending (s : State) : (s.clearFull).pending = s.pending := rfl

/-! ### dropHolder -/

@[simp] theorem State.dropHolder_lines (s : State) : (s.dropHolder).lines = s.lines := rfl
@[simp] theorem State.dropHolder_capture (s : State) : (s.dropHolder).capture = s.capture := rfl
@[simp] theorem State.dropHolder_matcher (s : State) : (s.dropHolder).matcher = s.matcher := rfl
@[simp] theorem State.dropHolder_inc (s : State) : (s.dropHolder).inc = s.inc := rfl
@[simp] theorem State.dropHolder_records (s : State) : (s.dropHolder).records = s.records := rfl
@[simp] theorem State.dropHolder_time (s : State) : (s.dropHolder).time = s.time := rfl
@[simp] theorem State.dropHolder_link (s : State) : (s.dropHolder).link = s.link := rfl
@[simp] theorem State.dropHolder_freeKey (s : State) : (s.dropHolder).freeKey = s.freeKey := rfl
@[simp] theorem State.dropHolder_pending (s : State) : (s.dropHolder).pending = s.pending := rfl

/-! ### setCommit -/

@[simp] theorem State.setCommit_lines (s : State) (c : Commit) : (s.setCommit c).lines = s.lines := rfl
@[simp] theorem State.setCommit_capture (s : State) (c : Commit) : (s.setCommit c).capture = s.capture := rfl
@[simp] theorem State.setCommit_matcher (s : State) (c : Commit) : (s.setCommit c).matcher = s.matcher := rfl
@[simp] theorem State.setCommit_inc (s : State) (c : Commit) : (s.setCommit c).inc = s.inc := rfl
@[simp] theorem State.setCommit_store (s : State) (c : Commit) : (s.setCommit c).store = s.store := rfl
@[simp] theorem State.setCommit_time (s : State) (c : Commit) : (s.setCommit c).time = s.time := rfl
@[simp] theorem State.setCommit_link (s : State) (c : Commit) : (s.setCommit c).link = s.link := rfl
@[simp] theorem State.setCommit_freeKey (s : State) (c : Commit) : (s.setCommit c).freeKey = s.freeKey := rfl
@[simp] theorem State.setCommit_pending (s : State) (c : Commit) : (s.setCommit c).pending = s.pending := rfl

/-! ### endCommit -/

@[simp] theorem State.endCommit_lines (s : State) : (s.endCommit).lines = s.lines := rfl
@[simp] theorem State.endCommit_capture (s : State) : (s.endCommit).capture = s.capture := rfl
@[simp] theorem State.endCommit_matcher (s : State) : (s.endCommit).matcher = s.matcher := rfl
@[simp] theorem State.endCommit_inc (s : State) : (s.endCommit).inc = s.inc := rfl
@[simp] theorem State.endCommit_time (s : State) : (s.endCommit).time = s.time := rfl
@[simp] theorem State.endCommit_link (s : State) : (s.endCommit).link = s.link := rfl
@[simp] theorem State.endCommit_freeKey (s : State) : (s.endCommit).freeKey = s.freeKey := rfl
@[simp] theorem State.endCommit_pending (s : State) : (s.endCommit).pending = s.pending := rfl

/-! ### commitOpens -/

@[simp] theorem State.commitOpens_lines (s : State) (c : Commit) (x : Fin 64) : (s.commitOpens c x).lines = s.lines := rfl
@[simp] theorem State.commitOpens_capture (s : State) (c : Commit) (x : Fin 64) : (s.commitOpens c x).capture = s.capture := rfl
@[simp] theorem State.commitOpens_matcher (s : State) (c : Commit) (x : Fin 64) : (s.commitOpens c x).matcher = s.matcher := rfl
@[simp] theorem State.commitOpens_inc (s : State) (c : Commit) (x : Fin 64) : (s.commitOpens c x).inc = s.inc := rfl
@[simp] theorem State.commitOpens_time (s : State) (c : Commit) (x : Fin 64) : (s.commitOpens c x).time = s.time := rfl
@[simp] theorem State.commitOpens_link (s : State) (c : Commit) (x : Fin 64) : (s.commitOpens c x).link = s.link := rfl
@[simp] theorem State.commitOpens_freeKey (s : State) (c : Commit) (x : Fin 64) : (s.commitOpens c x).freeKey = s.freeKey := rfl
@[simp] theorem State.commitOpens_pending (s : State) (c : Commit) (x : Fin 64) : (s.commitOpens c x).pending = s.pending := rfl

/-! ### commitOverwrites -/

@[simp] theorem State.commitOverwrites_lines (s : State) (c : Commit) (x : Fin 64) : (s.commitOverwrites c x).lines = s.lines := rfl
@[simp] theorem State.commitOverwrites_capture (s : State) (c : Commit) (x : Fin 64) : (s.commitOverwrites c x).capture = s.capture := rfl
@[simp] theorem State.commitOverwrites_matcher (s : State) (c : Commit) (x : Fin 64) : (s.commitOverwrites c x).matcher = s.matcher := rfl
@[simp] theorem State.commitOverwrites_inc (s : State) (c : Commit) (x : Fin 64) : (s.commitOverwrites c x).inc = s.inc := rfl
@[simp] theorem State.commitOverwrites_time (s : State) (c : Commit) (x : Fin 64) : (s.commitOverwrites c x).time = s.time := rfl
@[simp] theorem State.commitOverwrites_freeKey (s : State) (c : Commit) (x : Fin 64) : (s.commitOverwrites c x).freeKey = s.freeKey := rfl
@[simp] theorem State.commitOverwrites_pending (s : State) (c : Commit) (x : Fin 64) : (s.commitOverwrites c x).pending = s.pending := rfl

/-! ### retry -/

@[simp] theorem State.retry_lines (s : State) (k : Fin 4) (i : Incident) : (s.retry k i).lines = s.lines := rfl
@[simp] theorem State.retry_capture (s : State) (k : Fin 4) (i : Incident) : (s.retry k i).capture = s.capture := rfl
@[simp] theorem State.retry_matcher (s : State) (k : Fin 4) (i : Incident) : (s.retry k i).matcher = s.matcher := rfl
@[simp] theorem State.retry_store (s : State) (k : Fin 4) (i : Incident) : (s.retry k i).store = s.store := rfl
@[simp] theorem State.retry_records (s : State) (k : Fin 4) (i : Incident) : (s.retry k i).records = s.records := rfl
@[simp] theorem State.retry_time (s : State) (k : Fin 4) (i : Incident) : (s.retry k i).time = s.time := rfl
@[simp] theorem State.retry_link (s : State) (k : Fin 4) (i : Incident) : (s.retry k i).link = s.link := rfl
@[simp] theorem State.retry_freeKey (s : State) (k : Fin 4) (i : Incident) : (s.retry k i).freeKey = s.freeKey := rfl
@[simp] theorem State.retry_pending (s : State) (k : Fin 4) (i : Incident) : (s.retry k i).pending = s.pending := rfl

/-! ### leaveBytes -/

@[simp] theorem State.leaveBytes_lines (s : State) (p : ProgramOp) (b : List Byte) : (s.leaveBytes p b).lines = s.lines := rfl
@[simp] theorem State.leaveBytes_capture (s : State) (p : ProgramOp) (b : List Byte) : (s.leaveBytes p b).capture = s.capture := rfl
@[simp] theorem State.leaveBytes_matcher (s : State) (p : ProgramOp) (b : List Byte) : (s.leaveBytes p b).matcher = s.matcher := rfl
@[simp] theorem State.leaveBytes_inc (s : State) (p : ProgramOp) (b : List Byte) : (s.leaveBytes p b).inc = s.inc := rfl
@[simp] theorem State.leaveBytes_records (s : State) (p : ProgramOp) (b : List Byte) : (s.leaveBytes p b).records = s.records := rfl
@[simp] theorem State.leaveBytes_time (s : State) (p : ProgramOp) (b : List Byte) : (s.leaveBytes p b).time = s.time := rfl
@[simp] theorem State.leaveBytes_link (s : State) (p : ProgramOp) (b : List Byte) : (s.leaveBytes p b).link = s.link := rfl
@[simp] theorem State.leaveBytes_freeKey (s : State) (p : ProgramOp) (b : List Byte) : (s.leaveBytes p b).freeKey = s.freeKey := rfl
@[simp] theorem State.leaveBytes_pending (s : State) (p : ProgramOp) (b : List Byte) : (s.leaveBytes p b).pending = s.pending := rfl

/-! ### missTrigger -/

@[simp] theorem State.missTrigger_lines (s : State) (r : OpenRequest) : (s.missTrigger r).lines = s.lines := rfl
@[simp] theorem State.missTrigger_capture (s : State) (r : OpenRequest) : (s.missTrigger r).capture = s.capture := rfl
@[simp] theorem State.missTrigger_inc (s : State) (r : OpenRequest) : (s.missTrigger r).inc = s.inc := rfl
@[simp] theorem State.missTrigger_store (s : State) (r : OpenRequest) : (s.missTrigger r).store = s.store := rfl
@[simp] theorem State.missTrigger_records (s : State) (r : OpenRequest) : (s.missTrigger r).records = s.records := rfl
@[simp] theorem State.missTrigger_time (s : State) (r : OpenRequest) : (s.missTrigger r).time = s.time := rfl
@[simp] theorem State.missTrigger_freeKey (s : State) (r : OpenRequest) : (s.missTrigger r).freeKey = s.freeKey := rfl
@[simp] theorem State.missTrigger_pending (s : State) (r : OpenRequest) : (s.missTrigger r).pending = s.pending := rfl

/-! ### writeEntry -/

@[simp] theorem State.writeEntry_lines (s : State) (e : Fin 16) (b : EntryDef) : (s.writeEntry e b).lines = s.lines := rfl
@[simp] theorem State.writeEntry_capture (s : State) (e : Fin 16) (b : EntryDef) : (s.writeEntry e b).capture = s.capture := rfl
@[simp] theorem State.writeEntry_inc (s : State) (e : Fin 16) (b : EntryDef) : (s.writeEntry e b).inc = s.inc := rfl
@[simp] theorem State.writeEntry_store (s : State) (e : Fin 16) (b : EntryDef) : (s.writeEntry e b).store = s.store := rfl
@[simp] theorem State.writeEntry_records (s : State) (e : Fin 16) (b : EntryDef) : (s.writeEntry e b).records = s.records := rfl
@[simp] theorem State.writeEntry_time (s : State) (e : Fin 16) (b : EntryDef) : (s.writeEntry e b).time = s.time := rfl
@[simp] theorem State.writeEntry_link (s : State) (e : Fin 16) (b : EntryDef) : (s.writeEntry e b).link = s.link := rfl
@[simp] theorem State.writeEntry_freeKey (s : State) (e : Fin 16) (b : EntryDef) : (s.writeEntry e b).freeKey = s.freeKey := rfl
@[simp] theorem State.writeEntry_pending (s : State) (e : Fin 16) (b : EntryDef) : (s.writeEntry e b).pending = s.pending := rfl

/-! ### setCurrent -/

@[simp] theorem State.setCurrent_capture (s : State) (i : Fin 8) (f : CurrentFrame) : (s.setCurrent i f).capture = s.capture := rfl
@[simp] theorem State.setCurrent_matcher (s : State) (i : Fin 8) (f : CurrentFrame) : (s.setCurrent i f).matcher = s.matcher := rfl
@[simp] theorem State.setCurrent_inc (s : State) (i : Fin 8) (f : CurrentFrame) : (s.setCurrent i f).inc = s.inc := rfl
@[simp] theorem State.setCurrent_store (s : State) (i : Fin 8) (f : CurrentFrame) : (s.setCurrent i f).store = s.store := rfl
@[simp] theorem State.setCurrent_records (s : State) (i : Fin 8) (f : CurrentFrame) : (s.setCurrent i f).records = s.records := rfl
@[simp] theorem State.setCurrent_time (s : State) (i : Fin 8) (f : CurrentFrame) : (s.setCurrent i f).time = s.time := rfl
@[simp] theorem State.setCurrent_link (s : State) (i : Fin 8) (f : CurrentFrame) : (s.setCurrent i f).link = s.link := rfl
@[simp] theorem State.setCurrent_freeKey (s : State) (i : Fin 8) (f : CurrentFrame) : (s.setCurrent i f).freeKey = s.freeKey := rfl
@[simp] theorem State.setCurrent_pending (s : State) (i : Fin 8) (f : CurrentFrame) : (s.setCurrent i f).pending = s.pending := rfl

/-! ### configure -/

@[simp] theorem State.configure_matcher (s : State) (i : Fin 8) (c : LineConfig) : (s.configure i c).matcher = s.matcher := rfl
@[simp] theorem State.configure_inc (s : State) (i : Fin 8) (c : LineConfig) : (s.configure i c).inc = s.inc := rfl
@[simp] theorem State.configure_store (s : State) (i : Fin 8) (c : LineConfig) : (s.configure i c).store = s.store := rfl
@[simp] theorem State.configure_records (s : State) (i : Fin 8) (c : LineConfig) : (s.configure i c).records = s.records := rfl
@[simp] theorem State.configure_time (s : State) (i : Fin 8) (c : LineConfig) : (s.configure i c).time = s.time := rfl
@[simp] theorem State.configure_link (s : State) (i : Fin 8) (c : LineConfig) : (s.configure i c).link = s.link := rfl
@[simp] theorem State.configure_freeKey (s : State) (i : Fin 8) (c : LineConfig) : (s.configure i c).freeKey = s.freeKey := rfl
@[simp] theorem State.configure_pending (s : State) (i : Fin 8) (c : LineConfig) : (s.configure i c).pending = s.pending := rfl

/-! ### beginRead -/

@[simp] theorem State.beginRead_lines (s : State) (j : ReadJob) : (s.beginRead j).lines = s.lines := rfl
@[simp] theorem State.beginRead_capture (s : State) (j : ReadJob) : (s.beginRead j).capture = s.capture := rfl
@[simp] theorem State.beginRead_matcher (s : State) (j : ReadJob) : (s.beginRead j).matcher = s.matcher := rfl
@[simp] theorem State.beginRead_inc (s : State) (j : ReadJob) : (s.beginRead j).inc = s.inc := rfl
@[simp] theorem State.beginRead_records (s : State) (j : ReadJob) : (s.beginRead j).records = s.records := rfl
@[simp] theorem State.beginRead_time (s : State) (j : ReadJob) : (s.beginRead j).time = s.time := rfl
@[simp] theorem State.beginRead_link (s : State) (j : ReadJob) : (s.beginRead j).link = s.link := rfl
@[simp] theorem State.beginRead_freeKey (s : State) (j : ReadJob) : (s.beginRead j).freeKey = s.freeKey := rfl
@[simp] theorem State.beginRead_pending (s : State) (j : ReadJob) : (s.beginRead j).pending = s.pending := rfl

/-! ### addErase -/

@[simp] theorem State.addErase_lines (s : State) (x : Fin 64) : (s.addErase x).lines = s.lines := rfl
@[simp] theorem State.addErase_capture (s : State) (x : Fin 64) : (s.addErase x).capture = s.capture := rfl
@[simp] theorem State.addErase_matcher (s : State) (x : Fin 64) : (s.addErase x).matcher = s.matcher := rfl
@[simp] theorem State.addErase_inc (s : State) (x : Fin 64) : (s.addErase x).inc = s.inc := rfl
@[simp] theorem State.addErase_time (s : State) (x : Fin 64) : (s.addErase x).time = s.time := rfl
@[simp] theorem State.addErase_link (s : State) (x : Fin 64) : (s.addErase x).link = s.link := rfl
@[simp] theorem State.addErase_freeKey (s : State) (x : Fin 64) : (s.addErase x).freeKey = s.freeKey := rfl
@[simp] theorem State.addErase_pending (s : State) (x : Fin 64) : (s.addErase x).pending = s.pending := rfl

/-! ### discard -/

@[simp] theorem State.discard_lines (s : State) (e : IndexEntry) : (s.discard e).lines = s.lines := rfl
@[simp] theorem State.discard_capture (s : State) (e : IndexEntry) : (s.discard e).capture = s.capture := rfl
@[simp] theorem State.discard_matcher (s : State) (e : IndexEntry) : (s.discard e).matcher = s.matcher := rfl
@[simp] theorem State.discard_inc (s : State) (e : IndexEntry) : (s.discard e).inc = s.inc := rfl
@[simp] theorem State.discard_time (s : State) (e : IndexEntry) : (s.discard e).time = s.time := rfl
@[simp] theorem State.discard_link (s : State) (e : IndexEntry) : (s.discard e).link = s.link := rfl
@[simp] theorem State.discard_freeKey (s : State) (e : IndexEntry) : (s.discard e).freeKey = s.freeKey := rfl
@[simp] theorem State.discard_pending (s : State) (e : IndexEntry) : (s.discard e).pending = s.pending := rfl

end Sys2Proof.Machine
end

