-- ==== Sys2Proof/Laws/Link.lean ====
section
/-! SUPPORT. The laws of the host link's shared operations: what each can change, and the reply of a request. -/

namespace Sys2Proof.Machine

theorem Link.keeps_refl (a : Link) : Link.keeps a a := ⟨rfl, rfl, rfl, rfl, rfl, rfl⟩

theorem Link.keeps_trans {a b c : Link} (h : Link.keeps a b) (g : Link.keeps b c) : Link.keeps a c := by
  obtain ⟨h1, h2, h3, h4, h5, h6⟩ := h
  obtain ⟨g1, g2, g3, g4, g5, g6⟩ := g
  exact ⟨g1.trans h1, g2.trans h2, g3.trans h3, g4.trans h4, g5.trans h5, g6.trans h6⟩

theorem Link.quiet_refl (a : Link) : Link.quiet a a := rfl

theorem Link.takeNext_quiet (a : Link) : Link.quiet a a.takeNext := by
  unfold Link.takeNext; split <;> rfl

theorem Link.takeNext_slot (a : Link) : a.takeNext.slot = a.slot := by
  unfold Link.takeNext; split <;> rfl

theorem Link.takeNext_tx (a : Link) : a.takeNext.tx = a.tx := by
  unfold Link.takeNext; split <;> rfl

theorem Link.keeps_of_quiet {a b : Link} (h : Link.quiet a b) : Link.keeps a b := by
  unfold Link.quiet at h
  rw [h]
  exact ⟨rfl, rfl, rfl, rfl, rfl, rfl⟩

theorem Link.reportLost_keeps (a : Link) (tod : Stamp) : Link.keeps a (a.reportLost tod) := by
  unfold Link.reportLost; split <;> exact ⟨rfl, rfl, rfl, rfl, rfl, rfl⟩

theorem Link.begin_keeps (a : Link) (tod : Stamp) : Link.keeps a (a.begin tod) := by
  unfold Link.begin
  split
  · exact Link.keeps_refl a
  · exact Link.keeps_of_quiet (Link.takeNext_quiet _)
  · exact Link.reportLost_keeps _ tod
  · exact Link.keeps_refl a

theorem Link.notify_keeps (a : Link) (tod : Stamp) (n : Notice) : Link.keeps a (a.notify tod n) := by
  unfold Link.notify
  split
  · split
    · exact Link.begin_keeps (a.join tod n) tod
    · exact ⟨rfl, rfl, rfl, rfl, rfl, rfl⟩
  · exact Link.keeps_refl a

/-- Several notices of one event change the link alone. -/
theorem State.notifyAll_only (ns : List Notice) (s : State) :
    s.notifyAll ns = { s with link := (s.notifyAll ns).link } := by
  induction ns generalizing s with
  | nil => rfl
  | cons n rest ih =>
    have h := ih (s.notify n)
    have e : s.notifyAll (n :: rest) = (s.notify n).notifyAll rest := rfl
    rw [e, h]
    rfl

/-- No inter-byte timeout is due when the last byte came 1 ms ago or less, or outside a frame (R176). -/
theorem Link.expireBefore_in_time (a : Link) (now : Stamp)
    (h : a.hunter = .hunt ∨ microsSince now a.lastByteAt ≤ 1000) : a.expireBefore now = a := by
  unfold Link.expireBefore
  rw [if_neg]
  rintro ⟨h1, h2⟩
  rcases h with h | h
  · exact h1 h
  · exact absurd h2 (Nat.not_lt.mpr h)

/-- A byte that comes later than 1 ms finds the frame in progress dropped and counted (R176). -/
theorem Link.expireBefore_late (a : Link) (now : Stamp) (h : a.hunter ≠ .hunt)
    (g : 1000 < microsSince now a.lastByteAt) : a.expireBefore now = a.expire := if_pos ⟨h, g⟩

/-- With nothing to send, or while it sends, the transmitter begins nothing new by a placed reply alone: an idle one
begins the reply, a busy one leaves it in the slot. -/
theorem Link.place_idle (a : Link) (tod : Stamp) (r : Reply) (halt : Bool) (h : a.tx = none) :
    (a.place tod r halt).tx = some (.reply r) := by
  simp [Link.place, Link.begin, h, Link.takeNext_tx]

theorem Link.place_busy (a : Link) (tod : Stamp) (r : Reply) (halt : Bool) (h : a.tx ≠ none) :
    a.place tod r halt = { a with slot := some r, handler := heldHandler halt } := by
  obtain ⟨f, hf⟩ := Option.ne_none_iff_exists'.mp h
  simp [Link.place, Link.begin, hf]

theorem Link.place_quiet (a : Link) (tod : Stamp) (r : Reply) (halt : Bool) :
    Link.quiet a (a.place tod r halt) := by
  unfold Link.place Link.begin Link.quiet
  split
  · rfl
  · unfold Link.takeNext; split <;> rfl
  · rename_i h _ ; simp at h
  · rename_i h _ ; simp at h

theorem Link.sendReserved_quiet (a : Link) (r : Reply) (halt : Bool) :
    Link.quiet a ((a.reserve).sendReserved r halt) := by
  unfold Link.reserve Link.sendReserved Link.quiet
  unfold Link.takeNext; split <;> rfl

theorem Link.sendReserved_tx (a : Link) (r : Reply) (halt : Bool) :
    (a.sendReserved r halt).tx = some (.reply r) := by
  simp [Link.sendReserved, Link.takeNext_tx]

/-- The state a body acts on: the state of the event, with the transmitter perhaps taken for the reply. -/
def State.BodyState (s u : State) : Prop :=
  u = { s with link := u.link, freeKey := s.freeKey + 1 } ∧ (u.link = s.link ∨ u.link = s.link.reserve)

/-- All an answering execution can do, when its body leaves the link alone. -/
theorem State.answer_spec (s : State) (i : Instr) (body : State → State × Answer)
    (hl : ∀ u, (body u).1.link = u.link) :
    ∃ u, State.BodyState s u ∧ s.answer (reqOf i) false body
        = { (body u).1 with link := (s.answer (reqOf i) false body).link }
      ∧ State.Answered s (s.answer (reqOf i) false body) i (body u).2.result
          (replyTo (reqOf i) (body u).2).data := by
  unfold State.answer
  split
  · rename_i h
    refine ⟨{ s with link := s.link.reserve, freeKey := s.freeKey + 1 }, ⟨rfl, Or.inr rfl⟩, rfl, ?_, ?_⟩
    · simp only [hl]; exact Link.sendReserved_quiet _ _ _
    · left
      refine ⟨h.1, ?_⟩
      simp only [Link.sendReserved_tx]
      rfl
  · refine ⟨{ s with freeKey := s.freeKey + 1 }, ⟨rfl, Or.inl rfl⟩, rfl, ?_, ?_⟩
    · simp only [hl]; exact Link.place_quiet _ _ _ _
    · by_cases ht : s.link.tx = none
      · left
        refine ⟨ht, ?_⟩
        simp only [hl]
        rw [Link.place_idle _ _ _ _ ht]
        rfl
      · right
        refine ⟨ht, ?_⟩
        simp only [hl]
        rw [Link.place_busy _ _ _ _ ht]
        exact ⟨rfl, rfl, rfl⟩

/-- A request row whose request is in hand runs its body. -/
theorem State.serve_in_hand (s : State) (i : Instr) (body : State → State × Answer) (h : s.Executing i) :
    s.serve i body = s.answer (reqOf i) false body := by
  unfold State.serve State.request
  exact if_pos h

end Sys2Proof.Machine
end

