-- ==== Sys2Proof/Laws/Memory.lean ====
section
/-! SUPPORT. The laws of lists by key and of byte memories: what a read gives after a write, and that every
operation keeps the canonical form. -/

namespace Sys2Proof.Machine

/-! ### Lists by key -/

theorem lookupKey_insertKey_same {α : Type} (k : Nat) (v : α) (l : List (Nat × α)) :
    lookupKey k (insertKey k v l) = some v := by
  induction l with
  | nil => simp [insertKey, lookupKey]
  | cons c rest ih =>
    obtain ⟨j, w⟩ := c
    by_cases h1 : k < j
    · simp [insertKey, lookupKey, h1]
    · by_cases h2 : k = j
      · simp [insertKey, lookupKey, h2]
      · simp [insertKey, lookupKey, h1, h2, ih, Ne.symm h2]

theorem lookupKey_insertKey_other {α : Type} (k j : Nat) (h : j ≠ k) (v : α) (l : List (Nat × α)) :
    lookupKey j (insertKey k v l) = lookupKey j l := by
  induction l with
  | nil => simp [insertKey, lookupKey, Ne.symm h]
  | cons c rest ih =>
    obtain ⟨i, w⟩ := c
    by_cases h1 : k < i
    · simp [insertKey, lookupKey, h1, Ne.symm h]
    · by_cases h2 : k = i
      · subst h2; simp [insertKey, lookupKey, Ne.symm h]
      · simp [insertKey, lookupKey, h1, h2, ih]

theorem lookupKey_eraseKey_same {α : Type} (k : Nat) (l : List (Nat × α)) :
    lookupKey k (eraseKey k l) = none := by
  induction l with
  | nil => rfl
  | cons c rest ih =>
    obtain ⟨i, w⟩ := c
    by_cases h : i = k
    · simpa [eraseKey, h] using ih
    · simpa [eraseKey, lookupKey, h] using ih

theorem lookupKey_eraseKey_other {α : Type} (k j : Nat) (h : j ≠ k) (l : List (Nat × α)) :
    lookupKey j (eraseKey k l) = lookupKey j l := by
  induction l with
  | nil => rfl
  | cons c rest ih =>
    obtain ⟨i, w⟩ := c
    by_cases hi : i = k
    · subst hi; simpa [eraseKey, lookupKey, Ne.symm h] using ih
    · by_cases hj : i = j
      · simp [eraseKey, lookupKey, hj, h]
      · simpa [eraseKey, lookupKey, hi, hj] using ih

/-- Keys strictly rising, as Mathlib's pairwise order. -/
theorem risingKeys_iff_pairwise {α : Type} (l : List (Nat × α)) :
    risingKeys l = true ↔ l.Pairwise fun a b => a.1 < b.1 := by
  induction l with
  | nil => simp [risingKeys]
  | cons a rest ih =>
    cases rest with
    | nil => simp [risingKeys]
    | cons b more =>
      obtain ⟨j, v⟩ := a
      obtain ⟨k, w⟩ := b
      simp only [risingKeys, Bool.and_eq_true, decide_eq_true_eq, ih, List.pairwise_cons, List.mem_cons]
      constructor
      · rintro ⟨h, hk, hp⟩
        refine ⟨?_, hk, hp⟩
        rintro c (rfl | hc)
        · exact h
        · exact lt_trans h (hk c hc)
      · rintro ⟨h, hk, hp⟩
        exact ⟨h (k, w) (Or.inl rfl), hk, hp⟩

theorem mem_insertKey {α : Type} {k : Nat} {v : α} {l : List (Nat × α)} {c : Nat × α} :
    c ∈ insertKey k v l → c = (k, v) ∨ c ∈ l := by
  induction l with
  | nil => simp [insertKey]
  | cons a rest ih =>
    obtain ⟨j, w⟩ := a
    by_cases h1 : k < j
    · simp [insertKey, h1]
    · by_cases h2 : k = j
      · subst h2
        simp only [insertKey, lt_irrefl, if_false, if_true, List.mem_cons]
        rintro (h | h)
        · exact Or.inl h
        · exact Or.inr (Or.inr h)
      · simp only [insertKey, h1, h2, if_false, List.mem_cons]
        rintro (h | h)
        · exact Or.inr (Or.inl h)
        · rcases ih h with h | h
          · exact Or.inl h
          · exact Or.inr (Or.inr h)

theorem insertKey_rising {α : Type} (k : Nat) (v : α) (l : List (Nat × α)) (h : risingKeys l = true) :
    risingKeys (insertKey k v l) = true := by
  rw [risingKeys_iff_pairwise] at *
  induction l with
  | nil => simp [insertKey]
  | cons a rest ih =>
    obtain ⟨j, w⟩ := a
    rw [List.pairwise_cons] at h
    by_cases h1 : k < j
    · simp only [insertKey, h1, if_true, List.pairwise_cons, List.mem_cons]
      refine ⟨?_, h⟩
      rintro c (rfl | hc)
      · exact h1
      · exact lt_trans h1 (h.1 c hc)
    · by_cases h2 : k = j
      · subst h2
        simpa [insertKey, List.pairwise_cons] using h
      · simp only [insertKey, h1, h2, if_false, List.pairwise_cons]
        refine ⟨?_, ih h.2⟩
        intro c hc
        rcases mem_insertKey hc with rfl | hc
        · simp only; omega
        · exact h.1 c hc

theorem eraseKey_rising {α : Type} (k : Nat) (l : List (Nat × α)) (h : risingKeys l = true) :
    risingKeys (eraseKey k l) = true := by
  rw [risingKeys_iff_pairwise] at *
  exact h.filter _

/-! ### Byte memories -/

@[simp] theorem Memory.write_fill (m : Memory) (a : Nat) (v : Byte) : (m.write a v).fill = m.fill := by
  unfold Memory.write; split <;> rfl

theorem Memory.read_write_same (m : Memory) (a : Nat) (v : Byte) : (m.write a v).read a = v := by
  unfold Memory.write
  split
  · rename_i h
    simp [Memory.read, lookupKey_eraseKey_same, h.1, h.2, Fill.byte]
  · simp [Memory.read, lookupKey_insertKey_same]

theorem Memory.read_write_other (m : Memory) (a b : Nat) (h : b ≠ a) (v : Byte) :
    (m.write a v).read b = m.read b := by
  unfold Memory.write
  split
  · simp [Memory.read, lookupKey_eraseKey_other a b h]
  · simp [Memory.read, lookupKey_insertKey_other a b h]

theorem Memory.write_wf (m : Memory) (a : Nat) (v : Byte) (h : m.wf = true) : (m.write a v).wf = true := by
  simp only [Memory.wf, Bool.and_eq_true, Bool.or_eq_true] at h ⊢
  obtain ⟨h1, h2⟩ := h
  unfold Memory.write
  split
  · refine ⟨eraseKey_rising a _ h1, ?_⟩
    rcases h2 with h2 | h2
    · exact Or.inl h2
    · right
      rw [List.all_eq_true] at h2 ⊢
      intro c hc
      exact h2 c (List.mem_of_mem_filter hc)
  · rename_i hne
    refine ⟨insertKey_rising a v _ h1, ?_⟩
    by_cases hb : m.fill = .blank
    · right
      have hv : v ≠ 0xFF#8 := fun hv => hne ⟨hb, hv⟩
      rcases h2 with h2 | h2
      · simp [hb] at h2
      · rw [List.all_eq_true] at h2 ⊢
        intro c hc
        rcases mem_insertKey hc with rfl | hc
        · simpa using hv
        · exact h2 c hc
    · left; simpa using hb

theorem Memory.writeBytes_wf (bs : List Byte) (m : Memory) (a : Nat) (h : m.wf = true) :
    (m.writeBytes a bs).wf = true := by
  induction bs generalizing m a with
  | nil => exact h
  | cons b rest ih => exact ih _ _ (m.write_wf a b h)

theorem Memory.read_writeBytes_before (bs : List Byte) (m : Memory) (a b : Nat) (h : b < a) :
    (m.writeBytes a bs).read b = m.read b := by
  induction bs generalizing m a with
  | nil => rfl
  | cons c rest ih =>
    rw [Memory.writeBytes, ih _ _ (by omega), Memory.read_write_other _ _ _ (by omega)]

theorem Memory.read_writeBytes_after (bs : List Byte) (m : Memory) (a b : Nat) (h : a + bs.length ≤ b) :
    (m.writeBytes a bs).read b = m.read b := by
  induction bs generalizing m a with
  | nil => rfl
  | cons c rest ih =>
    rw [List.length_cons] at h
    rw [Memory.writeBytes, ih _ _ (by omega), Memory.read_write_other _ _ _ (by omega)]

theorem Memory.read_writeBytes_inside (bs : List Byte) (m : Memory) (a i : Nat) (h : i < bs.length) :
    (m.writeBytes a bs).read (a + i) = bs[i] := by
  induction bs generalizing m a i with
  | nil => simp at h
  | cons c rest ih =>
    rw [Memory.writeBytes]
    cases i with
    | zero =>
      rw [Memory.read_writeBytes_before _ _ _ _ (by omega)]
      simpa using m.read_write_same a c
    | succ j =>
      have := ih (m.write a c) (a + 1) j (by simpa using h)
      rw [show a + (j + 1) = a + 1 + j by omega, this]
      simp

theorem Memory.blank_wf : (⟨.blank, []⟩ : Memory).wf = true := rfl
theorem Memory.undef_wf (key : Nat) : (⟨.undef key, []⟩ : Memory).wf = true := rfl

end Sys2Proof.Machine
end

