-- ==== Sys2Proof/Laws/PerInstr.lean ====
section
/-! SUPPORT. Facts about every command as syntax, one lemma for each constructor of `Instr`. -/

namespace Sys2Proof.Laws.Payload

/-- A field of `k` bytes has `k` bytes. -/
theorem leBytes_length (k n : Nat) : (leBytes k n).length = k := by
  induction k generalizing n with
  | zero => rfl
  | succ k ih => simp [leBytes, ih]

/-- A bit vector's field has its width in bytes. -/
theorem encLE_length (k : Nat) (x : BitVec (8 * k)) : (encLE k x).length = k := leBytes_length k x.toNat

/-- A line configuration takes 19 bytes. -/
theorem lineArg_length (c : LineArg) : c.bytes.length = 19 := by
  simp only [LineArg.bytes, List.length_append, encLE_length, List.length_cons, List.length_nil]

/-- An entry definition takes 67 bytes. -/
theorem entryDef_length (e : EntryDef) : e.bytes.length = 67 := by
  simp only [EntryDef.bytes, crcBytes, List.length_append, encLE_length, List.length_cons, List.length_nil]

/-- A well-formed command that stands for a request has a payload that passes the handler's first checks (R179),
unless it is UNKNOWN_REQUEST, whose payload does not. -/
def Statement (i : Instr) : Prop :=
  WellFormed i = true → ∀ q, i.request? = some q →
    (payloadKnown q.payload = true ↔ ∀ tag p, i ≠ .unknownRequest tag p)

/-- A row that is no request. -/
theorem of_none {i : Instr} (h : i.request? = none) : Statement i := by
  intro _ q hq
  rw [h] at hq
  cases hq

/-- A request row whose payload passes the first checks. -/
theorem of_known {i : Instr} {q : Req} (h : i.request? = some q) (k : payloadKnown q.payload = true)
    (n : ∀ tag p, i ≠ .unknownRequest tag p) : Statement i := by
  intro _ r hr
  rw [h] at hr
  cases hr
  exact ⟨fun _ => n, fun _ => k⟩

theorem hardReset (straps : BitVec 2) : Statement (.hardReset straps) := of_none rfl

theorem restartTakesEffect : Statement .restartTakesEffect := of_none rfl

theorem characterCompletion (line : Fin 8) (bits : Byte) (parityBit : Bool) (stopHigh : Bool) : Statement (.characterCompletion line bits parityBit stopHigh) := of_none rfl

theorem idleTimerExpiry (line : Fin 8) : Statement (.idleTimerExpiry line) := of_none rfl

theorem classification (line : Fin 8) : Statement (.classification line) := of_none rfl

theorem trigInRisingEdge : Statement .trigInRisingEdge := of_none rfl

theorem trigInEdgeAccepted : Statement .trigInEdgeAccepted := of_none rfl

theorem holdoffExpiry (entry : Fin 16) : Statement (.holdoffExpiry entry) := of_none rfl

theorem postTimerExpiry (slot : Fin 4) : Statement (.postTimerExpiry slot) := of_none rfl

theorem hostByteReceived (byte : Option Byte) : Statement (.hostByteReceived byte) := of_none rfl

theorem interByteTimeout : Statement .interByteTimeout := of_none rfl

theorem txFrameEnd : Statement .txFrameEnd := of_none rfl

theorem programUnitEnd (cells : List Byte) : Statement (.programUnitEnd cells) := of_none rfl

theorem programUnitTimeout (cells : List Byte) : Statement (.programUnitTimeout cells) := of_none rfl

theorem eraseEnd (blank : Bool) : Statement (.eraseEnd blank) := of_none rfl

theorem eraseTimeout : Statement .eraseTimeout := of_none rfl

theorem arrayReadDone : Statement .arrayReadDone := of_none rfl

theorem scanFinish : Statement .scanFinish := of_none rfl

theorem unknownRequest (tag : Byte) (payload : List Byte) : Statement (.unknownRequest tag payload) := by
  intro h q hq
  cases hq
  simp only [WellFormed, Bool.and_eq_true, Bool.not_eq_true'] at h
  simp [h.2]

theorem identify (tag : Byte) : Statement (.identify tag) :=
  of_known rfl rfl (by intro _ _ h; cases h)

theorem getStatus (tag : Byte) : Statement (.getStatus tag) :=
  of_known rfl rfl (by intro _ _ h; cases h)

theorem setTime (tag : Byte) (time : Stamp) : Statement (.setTime tag time) :=
  of_known rfl (by simp [payloadKnown, argLength, encLE_length]) (by intro _ _ h; cases h)

theorem setNoticeMask (tag : Byte) (kinds : Half) (lines : Byte) : Statement (.setNoticeMask tag kinds lines) :=
  of_known rfl (by simp [payloadKnown, argLength, encLE_length]) (by intro _ _ h; cases h)

theorem clearFaults (tag : Byte) : Statement (.clearFaults tag) :=
  of_known rfl rfl (by intro _ _ h; cases h)

theorem restart (tag : Byte) : Statement (.restart tag) :=
  of_known rfl rfl (by intro _ _ h; cases h)

theorem configureLine (tag : Byte) (line : Byte) (cfg : LineArg) : Statement (.configureLine tag line cfg) :=
  of_known rfl (by simp [payloadKnown, argLength, lineArg_length]) (by intro _ _ h; cases h)

theorem startLine (tag : Byte) (line : Byte) (pinHigh : Bool) : Statement (.startLine tag line pinHigh) :=
  of_known rfl rfl (by intro _ _ h; cases h)

theorem stopLine (tag : Byte) (line : Byte) : Statement (.stopLine tag line) :=
  of_known rfl rfl (by intro _ _ h; cases h)

theorem getLineCounts (tag : Byte) (line : Byte) (clear : Byte) : Statement (.getLineCounts tag line clear) :=
  of_known rfl rfl (by intro _ _ h; cases h)

theorem setPoolMark (tag : Byte) (mark : Half) : Statement (.setPoolMark tag mark) :=
  of_known rfl (by simp [payloadKnown, argLength, encLE_length]) (by intro _ _ h; cases h)

theorem writeEntry (tag : Byte) (entry : Byte) (body : EntryDef) : Statement (.writeEntry tag entry body) :=
  of_known rfl (by simp [payloadKnown, argLength, entryDef_length]) (by intro _ _ h; cases h)

theorem readEntry (tag : Byte) (entry : Byte) : Statement (.readEntry tag entry) :=
  of_known rfl rfl (by intro _ _ h; cases h)

theorem clearEntry (tag : Byte) (entry : Byte) : Statement (.clearEntry tag entry) :=
  of_known rfl rfl (by intro _ _ h; cases h)

theorem forceTrigger (tag : Byte) (entry : Byte) : Statement (.forceTrigger tag entry) :=
  of_known rfl rfl (by intro _ _ h; cases h)

theorem listIncidents (tag : Byte) : Statement (.listIncidents tag) :=
  of_known rfl rfl (by intro _ _ h; cases h)

theorem closeIncident (tag : Byte) (id : Half) : Statement (.closeIncident tag id) :=
  of_known rfl (by simp [payloadKnown, argLength, encLE_length]) (by intro _ _ h; cases h)

theorem cancelIncident (tag : Byte) (id : Half) : Statement (.cancelIncident tag id) :=
  of_known rfl (by simp [payloadKnown, argLength, encLE_length]) (by intro _ _ h; cases h)

theorem listFrames (tag : Byte) (line : Byte) (list : Byte) (present : Byte) (after : Half) (max : Byte) : Statement (.listFrames tag line list present after max) :=
  of_known rfl (by simp [payloadKnown, argLength, encLE_length]) (by intro _ _ h; cases h)

theorem readFrame (tag : Byte) (line : Byte) (seq : Half) : Statement (.readFrame tag line seq) :=
  of_known rfl (by simp [payloadKnown, argLength, encLE_length]) (by intro _ _ h; cases h)

theorem takeFrames (tag : Byte) (line : Byte) (count : Byte) : Statement (.takeFrames tag line count) :=
  of_known rfl rfl (by intro _ _ h; cases h)

theorem releaseFrames (tag : Byte) (line : Byte) (seq : Half) : Statement (.releaseFrames tag line seq) :=
  of_known rfl (by simp [payloadKnown, argLength, encLE_length]) (by intro _ _ h; cases h)

theorem getStoreStatus (tag : Byte) : Statement (.getStoreStatus tag) :=
  of_known rfl rfl (by intro _ _ h; cases h)

theorem setStorePolicy (tag : Byte) (policy : Byte) : Statement (.setStorePolicy tag policy) :=
  of_known rfl rfl (by intro _ _ h; cases h)

theorem setProtection (tag : Byte) (sector : Byte) (level : Byte) : Statement (.setProtection tag sector level) :=
  of_known rfl rfl (by intro _ _ h; cases h)

theorem eraseSector (tag : Byte) (sector : Byte) : Statement (.eraseSector tag sector) :=
  of_known rfl rfl (by intro _ _ h; cases h)

theorem listRecords (tag : Byte) (first : Word) (filter : Byte) (max : Byte) : Statement (.listRecords tag first filter max) :=
  of_known rfl (by simp [payloadKnown, argLength, encLE_length]) (by intro _ _ h; cases h)

theorem readRecord (tag : Byte) (serial : Word) (first : Half) : Statement (.readRecord tag serial first) :=
  of_known rfl (by simp [payloadKnown, argLength, encLE_length]) (by intro _ _ h; cases h)

theorem verifyRecord (tag : Byte) (serial : Word) : Statement (.verifyRecord tag serial) :=
  of_known rfl (by simp [payloadKnown, argLength, encLE_length]) (by intro _ _ h; cases h)

theorem discardRecord (tag : Byte) (serial : Word) : Statement (.discardRecord tag serial) :=
  of_known rfl (by simp [payloadKnown, argLength, encLE_length]) (by intro _ _ h; cases h)

theorem startBit (line : Fin 8) (lowAtMid : Bool) : Statement (.startBit line lowAtMid) := of_none rfl

theorem pinSampledHigh (line : Fin 8) : Statement (.pinSampledHigh line) := of_none rfl

end Sys2Proof.Laws.Payload
end

