-- ==== Sys2Proof/Laws/Store.lean ====
section
/-! SUPPORT. What the record manager and the arbiter can do at an event: nothing outside the store, the incident
table and the link. -/

namespace Sys2Proof.Machine

theorem State.same_refl (s : State) : State.SameOutsideStore s s := ⟨rfl, rfl, rfl, rfl, rfl, rfl⟩

theorem State.same_trans {a b c : State} (h : State.SameOutsideStore a b) (g : State.SameOutsideStore b c) :
    State.SameOutsideStore a c := by
  obtain ⟨h1, h2, h3, h4, h5, h6⟩ := h
  obtain ⟨g1, g2, g3, g4, g5, g6⟩ := g
  exact ⟨g1.trans h1, g2.trans h2, g3.trans h3, g4.trans h4, g5.trans h5, g6.trans h6⟩

theorem State.noRoom_same (s : State) (k : Fin 4) (c : Commit) (r : FullReason) :
    State.SameOutsideStore s (s.noRoom k c r) := by
  unfold State.noRoom; dsimp only; split <;> exact ⟨rfl, rfl, rfl, rfl, rfl, rfl⟩

/-- An operation of the commit that begins at once. -/
theorem State.whenServed_now (s : State) (c : Commit) (f : State → State) (h : s.store.read = none) :
    s.whenServed c f = f s := if_pos h

/-- An operation of the commit that waits for the end of a record read. -/
theorem State.whenServed_later (s : State) (c : Commit) (f : State → State) (h : s.store.read ≠ none) :
    s.whenServed c f = s.setCommit { c with waiting := true } := if_neg h

@[simp] theorem nextSequence_last : nextSequence 0xFFFFFFFF#32 = Config.sequenceAfterLast := if_pos rfl

theorem nextSequence_below (seq : Word) (h : seq ≠ 0xFFFFFFFF#32) : nextSequence seq = seq + 1 := if_neg h

@[simp] theorem sequenceAbove_none : sequenceAbove none = 1 := rfl
@[simp] theorem sequenceAbove_some (w : Word) : sequenceAbove (some w) = nextSequence w := rfl

theorem State.whenServed_same (s : State) (c : Commit) (f : State → State)
    (h : ∀ u, State.SameOutsideStore u (f u)) : State.SameOutsideStore s (s.whenServed c f) := by
  unfold State.whenServed
  split
  · exact h s
  · exact ⟨rfl, rfl, rfl, rfl, rfl, rfl⟩

theorem State.overwriteOr_same (s : State) (k : Fin 4) (c : Commit) (r : FullReason) :
    State.SameOutsideStore s (s.overwriteOr k c r) := by
  unfold State.overwriteOr
  split
  · exact s.whenServed_same c _ fun _ => ⟨rfl, rfl, rfl, rfl, rfl, rfl⟩
  · exact s.noRoom_same k c r

theorem State.startRecordUnit_same (s : State) (i : Incident) (c : Commit) (p : Programming) :
    State.SameOutsideStore s (s.startRecordUnit i c p) := by
  unfold State.startRecordUnit; split <;> exact ⟨rfl, rfl, rfl, rfl, rfl, rfl⟩

theorem State.placeRecord_same (s : State) (k : Fin 4) (c : Commit) (x : Fin 64) (o : Nat) :
    State.SameOutsideStore s (s.placeRecord k c x o) := by
  unfold State.placeRecord
  split
  · exact s.same_refl
  · exact State.same_trans ⟨rfl, rfl, rfl, rfl, rfl, rfl⟩
      (State.whenServed_same _ _ _ fun _ => State.startRecordUnit_same _ _ _ _)

theorem State.findSector_same (s : State) (k : Fin 4) (c : Commit) :
    State.SameOutsideStore s (s.findSector k c) := by
  unfold State.findSector
  split
  · exact s.whenServed_same c _ fun _ => ⟨rfl, rfl, rfl, rfl, rfl, rfl⟩
  · exact s.overwriteOr_same k c .sector

theorem State.reserve_same (s : State) (k : Fin 4) (c : Commit) : State.SameOutsideStore s (s.reserve k c) := by
  unfold State.reserve
  split
  · exact s.noRoom_same k c .serials
  · split
    · exact s.overwriteOr_same k c .index
    · split
      · split
        · exact s.placeRecord_same k c _ _
        · exact State.same_trans ⟨rfl, rfl, rfl, rfl, rfl, rfl⟩ (State.findSector_same _ k c)
      · exact s.findSector_same k c

theorem State.grantCommit_same (s : State) : State.SameOutsideStore s s.grantCommit := by
  unfold State.grantCommit
  split
  · exact s.same_refl
  · split
    · exact s.same_refl
    · exact State.same_trans ⟨rfl, rfl, rfl, rfl, rfl, rfl⟩ (State.reserve_same _ _ _)

theorem State.grantReclaim_same (s : State) : State.SameOutsideStore s s.grantReclaim := by
  unfold State.grantReclaim; split <;> exact ⟨rfl, rfl, rfl, rfl, rfl, rfl⟩

theorem State.grantItem_same (s : State) (i : WorkItem) (rest : List WorkItem) :
    State.SameOutsideStore s (s.grantItem i rest) := by
  unfold State.grantItem; dsimp only; split <;> exact ⟨rfl, rfl, rfl, rfl, rfl, rfl⟩

/-- The arbiter (R107) leaves everything outside the store, the incident table and the link as it was. -/
theorem State.arbitrate_same (s : State) : State.SameOutsideStore s s.arbitrate := by
  unfold State.arbitrate
  split
  · split
    · exact s.grantItem_same _ _
    · dsimp only
      split
      · split
        · exact State.same_trans s.grantCommit_same (State.grantReclaim_same _)
        · exact s.grantCommit_same
      · split
        · exact s.grantReclaim_same
        · exact s.same_refl
  · exact s.same_refl

/-- Without an idle array the arbiter does nothing (R107). -/
theorem State.arbitrate_busy (s : State) (h : s.arrayIdle = false) : s.arbitrate = s := by
  simp [State.arbitrate, h]

/-- With no work of any kind the array stays idle (R107). -/
theorem State.arbitrate_no_work (s : State) (hw : s.store.work = []) (hq : s.inc.queue = [])
    (hr : s.store.toReclaim = none) : s.arbitrate = s := by
  have hc : s.grantCommit = s := by simp [State.grantCommit, hq]
  have hg : s.grantReclaim = s := by simp [State.grantReclaim, hr]
  unfold State.arbitrate
  split
  · rw [hw]
    dsimp only
    split <;> simp [hc, hg]
  · rfl

end Sys2Proof.Machine
end

