-- ==== Sys2Proof/Tests/Slice0.lean ====
section
/-! SUPPORT. Tests: the well-formedness checks on ill-formed terms, worked values of the manual, small steps, and for
each obligation with hypotheses one state and operands that meet them (`witness_<its subject>`). -/

-- One theorem at a time: each kernel evaluation takes a stack of its own.
set_option Elab.async false

namespace Sys2Proof.Tests

open Sys2Proof.Machine

/-! ### Well-formedness refuses -/

theorem test_known_payload_is_no_unknown_request : WellFormed (.unknownRequest 0 [0x01]) = false := by decide
theorem test_payload_longer_than_an_envelope :
    WellFormed (.unknownRequest 0 (List.replicate 1201 0)) = false := by decide +kernel
theorem test_longest_unknown_payload : WellFormed (.unknownRequest 0 (List.replicate 1200 0)) = true := by
  decide +kernel
theorem test_unit_end_beyond_a_block : WellFormed (.programUnitEnd (List.replicate 257 0)) = false := by
  decide +kernel
theorem test_unit_timeout_beyond_a_block : WellFormed (.programUnitTimeout (List.replicate 257 0)) = false := by
  decide +kernel
theorem test_word_spells_no_command : decodeTableWord 16 0x0101 = none := rfl

/-! ### States -/

/-- The part after reset with the store READY and the array held by a background erase to come. -/
def base : State :=
  { State.reset with store := { State.reset.store with state := .ready, holder := some .background } }

/-- A state whose handler executes a request row. -/
def taking (s : State) (i : Instr) : State :=
  { s with
    link := { s.link with handler := .executing (reqOf i) }
    store := { s.store with read := none } }

/-- A state that sends a frame. -/
def sending (s : State) : State := { s with link := { s.link with tx := some (.reply ⟨0, 0x31, .ok, []⟩) } }

/-- Line 0 as given. -/
def lineIs (s : State) (l : Line) : State := { s with lines := s.lines.set 0 l }

/-- Sector 3 as given. -/
def sectorIs (s : State) (v : Sector) : State := { s with store := { s.store with sectors := s.store.sectors.set 3 v } }

/-- Entry 5 as given, and the only one. -/
def entryIs (s : State) (b : EntryDef) : State :=
  { s with matcher := { s.matcher with entries := s.matcher.entries.set 5 (.fresh b) } }

/-- Slot 2 of the incident table as given. -/
def incidentIs (s : State) (n : Incident) : State :=
  { s with inc := { s.inc with table := s.inc.table.set 2 (some n), opened := [2], evtOut := true } }

/-- A frame of one byte in page 7, unpinned, with sequence number 9. -/
def frame : Frame :=
  { line := 0, seq := 9, start := 40, duration := 0, length := 1, pages := [7], check := .noCheck,
    flags := ⟨false, false, false, false⟩, matchSet := 0, pins := 0, place := .inHistory }

/-- Slot 4 holds that frame. -/
def framed (s : State) : State :=
  { s with capture := { s.capture with
      slots := [(4, frame)]
      mem := s.capture.mem.write (7 * 64) 0x41
      free := (List.range 1024).filter (· != 7) } }

/-- An active line of a GAP configuration in HUNT. -/
def gapLine : Line := { Line.reset with state := .active }

/-- A line with a FEED policy of limit 2. -/
def feedLine : Line := { gapLine with cfg := { gapLine.cfg with policy := .feed, depth := 2 } }

/-- An EXTERNAL entry that fires, with post time 5 ms. -/
def external : EntryDef := { unusedDef with kind := 3, enabled := 1, action := 2, postTime := 5, captureSet := 0xFF }

/-- A DIRECT entry for a first byte 41h. -/
def direct : EntryDef :=
  { unusedDef with
    kind := 1
    enabled := 1
    lineSet := 0xFF
    lenMin := 1
    lenMax := 1024
    width := 1
    pattern := 0x41
    byteMask := 0xFF }

/-- An incident without frames in a state. -/
def incident (st : IncidentState) : Incident :=
  { id := 1, source := .forced, entry := 0, trigger := none, triggerTime := 0, captureSet := 0, preCount := 0,
    postCount := 0, postTime := 0, state := st, frames := [], budget := 0, postFrames := 0, closeReason := none,
    preTrimmed := false, retried := false, cancelPending := false, serial := none, postTimer := none }

/-- An index entry of a record in sector 3. -/
def entry3 : IndexEntry :=
  { serial := 7, sector := 3, offset := 64, length := 80, id := 1, source := 2, entry := 0, triggerLine := 0xFF,
    triggerTime := 0, frameCount := 0, preTrimmed := false, retried := false, closedFull := false }

/-- A READY store with that entry. -/
def indexed (s : State) : State :=
  { sectorIs s { Sector.factory with state := .full, live := 1 } with records := { s.records with index := [entry3] } }

/-- The free-value counter does not matter to a request's being in hand. -/
theorem taking_executes (s : State) (i : Instr) : (taking s i).Executing i := And.intro rfl rfl

/-! ### Values of the manual and small steps -/

theorem test_crc16_of_the_digits :
    crc16 [0x31, 0x32, 0x33, 0x34, 0x35, 0x36, 0x37, 0x38, 0x39] = 0x29B1 := by decide +kernel

/-- A state reached by a command. -/
def after (i : Instr) (s : State) : State :=
  match exec i s with
  | .next t => t
  | _ => s

theorem test_scan_of_the_blank_array : (after .scanFinish State.reset).store.state = .ready := by decide +kernel

theorem test_identify_after_reset : (after (.identify 0x11) (sending State.reset)).link.slot =
    some ⟨0x11, 0x01, .ok, [0x2A, 0x03, 1, 0, 8, 0x00, 0x04, 64, 16, 4, 64, 0x00, 0x80, 0x00, 0x04, 8,
      0xB0, 0x04, 0]⟩ := by decide +kernel

theorem test_unknown_request_is_bad : (after (.unknownRequest 3 [0x99]) (sending State.reset)).link.slot =
    some ⟨3, 0x99, .badRequest, []⟩ := by decide +kernel

theorem test_identify_arrives_byte_by_byte :
    ((envelope 0x01#8 0x11 [0x01]).foldl Link.receive State.reset.link).handler = .executing ⟨0x11, [0x01]⟩ := by
  decide +kernel

theorem test_start_line_begins_to_discard :
    ((after (.startLine 0 0 true) (sending State.reset)).lines[(0 : Fin 8)]).reception = .discarding := by decide +kernel

theorem test_first_character_takes_slot_0 :
    (after (.characterCompletion 0 0x41 false true) (lineIs base gapLine)).capture.slots.map (·.1) = [0] := by
  decide +kernel

theorem test_parity_error_counts :
    ((after (.characterCompletion 0 0x41 true true)
      (lineIs base { gapLine with cfg := { gapLine.cfg with parity := .even } })).lines[(0 : Fin 8)]).counters.charErrors
      = 1 := by decide +kernel

theorem test_unit_programs_its_bytes :
    ((after (.programUnitEnd []) { base with store := { base.store with
        op := some (.program ⟨3, 68, [0x0F], .mark, some 7, 0⟩), holder := some .hostItem } }).store.sectors[(3 : Fin 64)]
      ).mem.read 68 = 0x0F := by decide +kernel

theorem test_blank_erase_ends_erased :
    ((after (.eraseEnd true) (sectorIs { base with store := { base.store with
        op := some (.erase ⟨3, .reclaim, 0, some 0⟩) } } { Sector.factory with state := .erasing })).store.sectors[
      (3 : Fin 64)]).state = .erased := by decide +kernel

theorem test_forced_incident_is_queued_at_once :
    (after (.forceTrigger 0 5) (entryIs (sending base) { external with postTime := 0 })).inc.queue = [0] := by decide +kernel

theorem test_erase_sector_begins_its_erase :
    ((after (.eraseSector 0 3) { sending base with store := { base.store with holder := none } }).store.sectors[
      (3 : Fin 64)]).state = .erasing := by decide +kernel

/-! ### Witnesses: steps and invariants -/

theorem witness_front_command : { base with pending := [.scanFinish, .txFrameEnd] }.pending
    = Instr.scanFinish :: [.txFrameEnd] := rfl

theorem witness_empty_queue_with_a_due_holdoff :
    (entryIs base external).pending = []
      ∧ ({ base with matcher := { base.matcher with
            entries := base.matcher.entries.set 5 { Entry.fresh external with holdoffEnd := some 1 } } }.matcher.entries[
              (5 : Fin 16)]).holdoffEnd = some 1
      ∧ reached (base.time.elapsed + 1) 1 = true := by decide +kernel

theorem witness_command_answers : ∃ t, exec .txFrameEnd base = .next t ∧ t.pending = base.pending := ⟨_, rfl, rfl⟩

theorem witness_memories : (framed base).memoriesCanonical = true ∧ ∃ t, step (framed base) = .next t :=
  ⟨by decide +kernel, _, rfl⟩

theorem witness_queues : base.queuesBounded ∧ base.masksKept ∧ base.link.consistent ∧ ∃ t, step base = .next t := by
  refine ⟨by unfold State.queuesBounded; decide +kernel, by unfold State.masksKept; decide +kernel, ?_, _, rfl⟩
  unfold Link.consistent
  decide +kernel

/-- The frame in page 0, pinned once. -/
def pinned : Frame := { frame with pages := [0], pins := 1 }

/-- Line 0 has that frame in its history, and the incident in slot 2 holds it. -/
def placed : State :=
  let s := incidentIs base { incident .collecting with frames := [4] }
  { s with capture := { s.capture with
      slots := [(4, pinned)], free := (List.range 1024).tail, hist := s.capture.hist.set 0 [4] } }

theorem witness_frames_placed : placed.framesPlaced ∧ ∃ t, step placed = .next t := by
  refine ⟨?_, _, rfl⟩
  unfold State.framesPlaced
  decide +kernel

theorem witness_pages : placed.pagesConserved ∧ ∃ t, step placed = .next t := by
  refine ⟨⟨?_, rfl⟩, _, rfl⟩
  refine (List.perm_append_comm (l₁ := placed.capture.free)).trans (List.Perm.of_eq ?_)
  decide +kernel

theorem witness_pins : placed.pinsAgree ∧ ∃ t, step placed = .next t := by
  refine ⟨⟨fun k n h => ?_, fun id f h => ?_⟩, _, rfl⟩
  · have all : ∀ k : Fin 4, (placed.inc.table[k]).all fun n => decide (n.frames = [4]) := by decide +kernel
    have one := all k
    rw [h] at one
    have e : n.frames = [4] := of_decide_eq_true one
    rw [e]
    decide +kernel
  · have at4 : (if 4 = id then some pinned else none) = some f := h
    split at at4
    next e => cases e; cases at4; decide +kernel
    next => cases at4

/-- An erase in progress. -/
def erasing : State :=
  sectorIs { base with store := { base.store with op := some (.erase ⟨3, .reclaim, 0, some 0⟩) } }
    { Sector.factory with state := .erasing }

/-- Its operation is in order. -/
theorem erasing_opGuarded : erasing.opGuarded :=
  ⟨by decide +kernel, by decide +kernel, by decide +kernel, fun h => nomatch h⟩

theorem witness_array : erasing.arrayGuarded ∧ ∃ t, step erasing = .next t :=
  ⟨⟨by decide +kernel, by decide +kernel, erasing_opGuarded, trivial, by decide +kernel⟩, _, rfl⟩

/-- A commit overwrites sector 3 while a record read is served. -/
def overwriting : State :=
  { erasing with
    store := { erasing.store with
      op := some (.erase ⟨3, .overwrite, 0, none⟩), holder := some .commit, read := some (.verify entry3) }
    records := { erasing.records with commit := some ⟨none, 80, .overwriteOldest, .reservation none, false⟩ } }

theorem witness_array_overwrite : overwriting.arrayGuarded ∧ ∃ t, step overwriting = .next t := by
  refine ⟨⟨by decide +kernel, by decide +kernel, ?_, ?_, by decide +kernel⟩, _, rfl⟩
  · exact ⟨by decide +kernel, by decide +kernel, by decide +kernel, fun _ c h => by cases h; rfl⟩
  · show some Holder.commit = some Holder.commit ∧ (∀ k : Fin 4, (none : Option (Fin 4)) = some k → _)
      ∧ (false = true → _) ∧ True
    exact ⟨rfl, fun _ h => (Option.some_ne_none _ h.symm).elim, fun h => (Bool.false_ne_true h).elim, trivial⟩

/-- The same, and sector 5 is OPEN. -/
def opened : State :=
  let open5 : Sector := { Sector.factory with state := .opened, seq := some 1, fillOffset := some 64 }
  { erasing with store := { erasing.store with sectors := erasing.store.sectors.set 5 open5 } }

theorem witness_one_open_sector : opened.arrayGuarded ∧ opened.oneOpenSector ∧ ∃ t, step opened = .next t := by
  refine ⟨⟨by decide +kernel, by decide +kernel, ?_, trivial, by decide +kernel⟩, ?_, _, rfl⟩
  · exact ⟨by decide +kernel, by decide +kernel, by decide +kernel, fun h => nomatch h⟩
  · unfold State.oneOpenSector
    decide +kernel

/-! ### Witnesses: resets and the link -/

theorem witness_hard_reset_spares_other_sectors :
    (erasing.store.op.all fun o => o.sector != 63) = true ∧ (erasing.store.op.all fun o => o.sector != 3) = false := by
  decide +kernel

/-- The RESTART reply is being sent. -/
def restarting : State :=
  { base with link := { base.link with handler := .halted, tx := some (.reply ⟨0, 0x06, .ok, []⟩) } }

theorem witness_restart : restarting.link.restartSending = true
    ∧ (restarting.store.op.all fun o => o.sector != 3) = true := by decide +kernel

theorem witness_resets : (∃ t, exec (.hardReset 0) base = .next t)
    ∧ restarting.link.restartSending = true ∧ ∃ t, exec .restartTakesEffect restarting = .next t :=
  ⟨⟨_, rfl⟩, rfl, _, rfl⟩

theorem witness_request_envelope : base.link.hunter = .hunt ∧ (List.replicate 1200 (0 : Byte)).length ≤ 1200 := by
  decide +kernel

theorem witness_hunter :
    base.link.hunter = .hunt ∧ { base.link with hunter := .header [] }.hunter ≠ .hunt
      ∧ ((1000 : Stamp) - 0).toNat ≤ 1000 ∧ 1000 < ((1001 : Stamp) - 0).toNat := by decide +kernel

/-- A notice in the queue. -/
def queued : QueuedNotice := ⟨0, 0, .poolPressure true 0 64⟩

theorem witness_frame_end :
    (sending base).link.restartSending = false ∧ (sending base).link.tx ≠ none
      ∧ { (sending base).link with slot := some ⟨0, 0x31, .ok, []⟩ }.restartSending = false
      ∧ { (sending base).link with notices := [queued] }.notices = queued :: []
      ∧ { (sending base).link with notices := [queued], lost := ⟨1, 4, 0⟩ }.lost.count ≠ 0
      ∧ (sending base).link.lost.count = 0 ∧ (sending base).link.slot = none ∧ (sending base).link.notices = [] := by
  decide +kernel

theorem witness_notice :
    (sending base).link.tx ≠ none
      ∧ { (sending base).link with kindMask := 0x4002#16 }.passes (.poolPressure true 0 64) = false
      ∧ (sending base).link.passes (.poolPressure true 0 64) = true
      ∧ { (sending base).link with notices := List.replicate 15 queued }.notices.length < 16
      ∧ 16 ≤ { (sending base).link with notices := List.replicate 16 queued }.notices.length := by decide +kernel

theorem witness_round_trip :
    WellFormed (.unknownRequest 1 []) = true ∧ (Instr.unknownRequest 1 []).request? = some ⟨1, []⟩
      ∧ (Instr.identify 1).request? = some ⟨1, [0x01]⟩ := by decide +kernel

theorem witness_unknown_request :
    payloadKnown [] = false ∧ (taking base (.unknownRequest 1 [])).Executing (.unknownRequest 1 []) :=
  ⟨rfl, taking_executes _ _⟩

theorem witness_refusals :
    (taking base (.setProtection 0 64 0)).Executing (.setProtection 0 64 0)
      ∧ (taking base (.takeFrames 0 0 33)).Executing (.takeFrames 0 0 33)
      ∧ (taking base (.verifyRecord 0 7)).Executing (.verifyRecord 0 7)
      ∧ (taking base (.verifyRecord 0 7)).store.state = .ready
      ∧ (taking base (.verifyRecord 0 7)).records.entryOf 7 = none
      ∧ lineOf 7 = some 7 ∧ (taking base (.releaseFrames 0 7 0)).lines[(7 : Fin 8)].cfg.policy = .ring := by
  refine ⟨taking_executes _ _, taking_executes _ _, taking_executes _ _, ?_⟩
  decide +kernel

/-- Requests whose statements ask for nothing but that they are in hand. -/
theorem witness_requests_in_hand :
    (taking base (.identify 0)).Executing (.identify 0) ∧ (taking base (.getStatus 0)).Executing (.getStatus 0)
      ∧ (taking base (.setTime 0 5)).Executing (.setTime 0 5)
      ∧ (taking base (.clearFaults 0)).Executing (.clearFaults 0) ∧ (taking base (.restart 0)).Executing (.restart 0)
      ∧ (taking base (.listFrames 0 0 0 0 0 1)).Executing (.listFrames 0 0 0 0 0 1)
      ∧ (taking base (.readFrame 0 0 0)).Executing (.readFrame 0 0 0)
      ∧ (taking base (.readEntry 0 15)).Executing (.readEntry 0 15)
      ∧ (taking base (.getStoreStatus 0)).Executing (.getStoreStatus 0)
      ∧ (taking base (.listIncidents 0)).Executing (.listIncidents 0)
      ∧ (taking base (.listRecords 0 0 0xFF 40)).Executing (.listRecords 0 0 0xFF 40) := by
  refine ⟨?_, ?_, ?_, ?_, ?_, ?_, ?_, ?_, ?_, ?_, ?_⟩ <;> exact taking_executes _ _

theorem witness_notice_masks :
    (taking base (.setNoticeMask 0 1 0)).Executing (.setNoticeMask 0 1 0)
      ∧ (taking base (.setNoticeMask 0 2 0)).Executing (.setNoticeMask 0 2 0)
      ∧ (1#16).getLsbD 0 = true ∧ (0x8000#16).getLsbD 15 = true
      ∧ ¬ ((2#16).getLsbD 0 = true ∨ (2#16).getLsbD 15 = true) :=
  ⟨taking_executes _ _, taking_executes _ _, by decide⟩

/-! ### Witnesses: lines -/

theorem witness_sampling :
    (lineIs base gapLine).lines[(0 : Fin 8)].samples = true ∧ (lineIs base gapLine).lines[(0 : Fin 8)].awaitHigh = false
      ∧ (lineIs base gapLine).lines[(0 : Fin 8)].inCharacter = false
      ∧ (lineIs base { gapLine with awaitHigh := true }).lines[(0 : Fin 8)].awaitHigh = true := by decide +kernel

theorem witness_character_outside_a_frame :
    let discard := lineIs base { gapLine with reception := .discarding }
    let hunt := lineIs base { gapLine with cfg := { gapLine.cfg with mode := .marked } }
    let g := discard.lines[(0 : Fin 8)]
    let m := hunt.lines[(0 : Fin 8)]
    discard.Sampling 0 2 ∧ g.current = none ∧ g.cfg.mode = .gap ∧ g.reception = .discarding
      ∧ hunt.Sampling 0 2 ∧ m.current = none ∧ m.cfg.mode = .marked ∧ m.reception = .hunt
      ∧ charValue m.cfg.sevenBits 0x02 = m.cfg.startByte ∧ charValue m.cfg.sevenBits 0x03 ≠ m.cfg.startByte
      ∧ (parityError m.cfg.parity (charValue m.cfg.sevenBits 0x02) false || !true) = false
      ∧ (parityError m.cfg.parity (charValue m.cfg.sevenBits 0x02) false || !false) = true := by
  unfold State.Sampling
  decide +kernel

/-- A line in DISCARDING, its idle interval running, with so many characters known to remain. -/
def discarding (mode : FramingMode) (left : Option Nat) : Line :=
  { gapLine with
    cfg := { gapLine.cfg with mode := mode }, reception := .discarding, idle := some ⟨40, 1⟩, discardLeft := left }

theorem witness_character_in_discarding :
    let m := (lineIs base (discarding .marked none)).lines[(0 : Fin 8)]
    let c := fun left => (lineIs base (discarding .counted left)).lines[(0 : Fin 8)]
    (lineIs base (discarding .marked none)).Sampling 0 2 ∧ m.current = none ∧ m.cfg.mode = .marked
      ∧ (lineIs base (discarding .counted (some 2))).Sampling 0 2 ∧ (c (some 2)).current = none
      ∧ m.reception = .discarding ∧ m.escape = false
      ∧ (lineIs base { discarding .marked none with escape := true }).lines[(0 : Fin 8)].escape = true
      ∧ (parityError m.cfg.parity (charValue m.cfg.sevenBits 0x02) false || !true) = false
      ∧ charValue m.cfg.sevenBits 0x02 = m.cfg.startByte ∧ charValue m.cfg.sevenBits 0x03 = m.cfg.endByte
      ∧ charValue m.cfg.sevenBits 0x10 = m.cfg.escapeByte ∧ m.cfg.endByte ≠ m.cfg.startByte
      ∧ m.cfg.escapeByte ≠ m.cfg.startByte ∧ m.cfg.escapeByte ≠ m.cfg.endByte
      ∧ (c none).cfg.mode = .counted ∧ (c none).reception = .discarding ∧ (c none).discardLeft = none
      ∧ (c (some 1)).discardLeft = some 1 ∧ (c (some 2)).discardLeft = some 2 := by
  unfold State.Sampling
  decide +kernel

theorem witness_idle_outside_a_frame :
    let l := (lineIs base (discarding .counted (some 2))).lines[(0 : Fin 8)]
    l.state = .active ∧ l.idle = some ⟨40, 1⟩ ∧ l.inCharacter = false ∧ l.awaiting.length ≤ 2 ∧ l.current = none
      ∧ l.reception = .discarding := by decide +kernel

/-- The frame of slot 4 in reception. -/
def current : CurrentFrame := ⟨.stored, some 4, 1, false, 40, 40, 40, 40, none⟩

/-- A line that receives it, its idle interval running. -/
def receiving : Line := { gapLine with reception := .receiving, current := some current, idle := some ⟨40, 1⟩ }

theorem witness_idle_expiry :
    let s := lineIs (framed base) receiving
    let l := s.lines[(0 : Fin 8)]
    l.state = .active ∧ l.idle = some ⟨40, 1⟩ ∧ l.inCharacter = false ∧ l.awaiting.length ≤ 1 ∧ l.cfg.mode = .gap
      ∧ l.reception = .receiving ∧ l.current = some current ∧ current.taking = .stored ∧ current.slot = some 4
      ∧ s.capture.frame? 4 = some frame := by decide +kernel

theorem witness_idle_expiry_without_a_stored_byte :
    let followed := { current with taking := .followedShed, slot := none }
    let bare := { current with slot := none, count := 0 }
    let l := (lineIs base { receiving with current := some followed, state := .shed }).lines[(0 : Fin 8)]
    let m := (lineIs base { receiving with current := some bare, cfg := { gapLine.cfg with mode := .marked } }).lines[(0 : Fin 8)]
    l.state = .shed ∧ l.idle = some ⟨40, 1⟩ ∧ l.inCharacter = false ∧ l.awaiting.length ≤ 2 ∧ l.reception = .receiving
      ∧ l.current = some followed ∧ (followed.taking = .stored → followed.slot = none) ∧ followed.count ≠ 0
      ∧ m.current = some bare ∧ bare.taking = .stored ∧ bare.slot = none := by decide +kernel

/-- Slot 4 takes the bytes of a frame on line 0 in a mode, `count` of them so far, its slot `length` bytes long. -/
def inFrame (mode : FramingMode) (count length : Nat) (total : Option Nat) : State :=
  lineIs { base with capture := { base.capture with slots := [(4, { frame with length := length, place := .inReception })] } }
    { receiving with
      cfg := { gapLine.cfg with mode := mode, maxLength := 64, lenOffset := 1 }
      current := some { current with count := count, total := total } }

/-- Its frame in reception, and the slot's. -/
theorem inFrame_receives (mode : FramingMode) (count length : Nat) (total : Option Nat) :
    (inFrame mode count length total).Receiving 0 mode { current with count := count, total := total } 4
      { frame with length := length, place := .inReception } :=
  ⟨⟨⟨Or.inl rfl, rfl, Nat.zero_le 1⟩, rfl, rfl, rfl⟩, rfl, rfl, rfl⟩

/-- Line 0 in HUNT in a mode, in a state. -/
def hunting (mode : FramingMode) (state : LineState) : State :=
  lineIs base { gapLine with state := state, cfg := { gapLine.cfg with mode := mode } }

/-- Line 0 in a frame of a mode that has no slot: followed, or without a byte. -/
def slotless (mode : FramingMode) (taking : Taking) (count : Nat) : State :=
  lineIs base { receiving with
    cfg := { gapLine.cfg with mode := mode }
    current := some { current with taking := taking, slot := none, count := count } }

/-- The hypotheses on a character that begins a frame, taken so. -/
abbrev Begins (mode : FramingMode) (state : LineState) (taking : Taking) : Prop :=
  ((hunting mode state).frameFor 0).map (fun cur => (cur.taking, cur.slot, cur.count)) = some (taking, none, 0)

theorem witness_sampling_in_hunt : ∀ mode ∈ [FramingMode.gap, .marked, .counted],
    ∀ state ∈ [LineState.active, .suspended, .shed], (hunting mode state).Sampling 0 1 := by
  unfold State.Sampling
  decide +kernel

theorem witness_frames_begun_in_hunt :
    Begins .gap .active .stored ∧ Begins .gap .suspended .followedLost ∧ Begins .gap .shed .followedShed
      ∧ Begins .counted .active .stored ∧ Begins .counted .shed .followedShed
      ∧ ((hunting .gap .active).byteGoes 0 none 0x41).map (fun g => (g.1, g.2.slots)) = some (0, [(0, Frame.begun 0 0)])
      ∧ (hunting .gap .active).lines[(0 : Fin 8)].cfg.maxLength = 256 := by decide +kernel

/-- The claim that leaves 64 pages free, the low mark after reset, sets pressure ON. -/
theorem witness_claim_under_pressure :
    let s := hunting .gap .active
    let c := { s.capture with free := (List.range 65) }
    c.free = 0 :: c.free.tail ∧ c.pressure = false ∧ c.free.tail.length ≤ c.lowMark
      ∧ s.lines[(0 : Fin 8)].state = .active ∧ s.lines[(0 : Fin 8)].cfg.mode = .gap
      ∧ s.lines[(0 : Fin 8)].reception = .hunt ∧ 1 ≤ s.lines[(0 : Fin 8)].cfg.maxLength
      ∧ pressureAfter false 64 c.lowMark = true ∧ pressureAfter false 65 c.lowMark = false := by decide +kernel

theorem witness_frames_in_reception :
    ((inFrame .gap 63 63 none).frameFor 0) = some { current with count := 63 }
      ∧ ((inFrame .counted 63 63 none).frameFor 0) = some { current with count := 63 }
      -- byte 64 falls in the page the frame holds, byte 65 in the head of the free page list
      ∧ ((inFrame .gap 63 63 none).byteGoes 0 (some 4) 0x41).map (fun g => g.2.mem.read (7 * 64 + 63)) = some 0x41
      ∧ ((inFrame .gap 63 64 none).byteGoes 0 (some 4) 0x41).map (fun g => (g.2.frame? 4).map Frame.pages)
        = some (some [7, 0])
      ∧ 63 < (inFrame .gap 63 64 none).lines[(0 : Fin 8)].cfg.maxLength
      ∧ (slotless .gap .followedLost 1).InFrame 0 .gap { current with taking := .followedLost, slot := none, count := 1 }
      ∧ (slotless .counted .followedLost 1).Sampling 0 1 := by
  unfold State.InFrame State.Sampling
  decide +kernel

theorem witness_gap_cut :
    (inFrame .gap 64 64 none).lines[(0 : Fin 8)].cfg.maxLength ≤ { current with count := 64 }.count := by decide +kernel

theorem witness_marked_frame :
    let s := inFrame .marked 63 63 none
    let l := s.lines[(0 : Fin 8)]
    s.InFrame 0 .marked { current with count := 63 } ∧ s.capture.frame? 4 = some { frame with length := 63, place := .inReception }
      ∧ l.escape = false ∧ (parityError l.cfg.parity (charValue l.cfg.sevenBits 0x03) false || !true) = false
      ∧ charValue l.cfg.sevenBits 0x03 = l.cfg.endByte ∧ charValue l.cfg.sevenBits 0x02 = l.cfg.startByte
      ∧ l.cfg.startByte ≠ l.cfg.endByte ∧ charValue l.cfg.sevenBits 0x10 = l.cfg.escapeByte
      ∧ l.cfg.escapeByte ≠ l.cfg.endByte ∧ l.cfg.escapeByte ≠ l.cfg.startByte
      -- an errored marker is a byte of the frame, stored below the maximum length, and beyond it the frame is cut
      ∧ (parityError l.cfg.parity (charValue l.cfg.sevenBits 0x03) false || !false) = true ∧ 63 < l.cfg.maxLength
      ∧ (s.byteGoes 0 (some 4) 0x03).isSome = true
      ∧ ((inFrame .marked 63 64 none).byteGoes 0 (some 4) 0x03).isSome = true
      ∧ (inFrame .marked 64 64 none).InFrame 0 .marked { current with count := 64 }
      ∧ (inFrame .marked 64 64 none).lines[(0 : Fin 8)].cfg.maxLength ≤ 64
      -- without a byte, its first one takes a slot; and followed
      ∧ (slotless .marked .stored 0).InFrame 0 .marked { current with slot := none, count := 0 }
      ∧ ((slotless .marked .stored 0).byteGoes 0 none 0x41).isSome = true
      ∧ (slotless .marked .followedShed 3).InFrame 0 .marked
        { current with taking := .followedShed, slot := none, count := 3 } := by
  unfold State.InFrame State.Sampling
  decide +kernel

theorem witness_counted_frame :
    (inFrame .counted 63 63 none).lines[(0 : Fin 8)].cfg.maxLength = 64 ∧ 63 < 64
      ∧ (((inFrame .counted 63 63 none).byteGoes 0 (some 4) 0x41).map fun g => (g.2.frame? 4).map Frame.length)
        = some (some 64)
      -- at the length offset 1 with addend 0: totals 1, 2 and 3 are broken, whole and known
      ∧ (inFrame .counted 1 1 none).lines[(0 : Fin 8)].cfg.lenOffset.toNat = 1
      -- at the maximum length: a total of 64 is whole, 65 leaves one character to pass
      ∧ (inFrame .counted 63 63 (some 65)).lines[(0 : Fin 8)].current = some { current with count := 63, total := some 65 }
      ∧ (inFrame .counted 63 63 (some 64)).lines[(0 : Fin 8)].current = some { current with count := 63, total := some 64 }
      -- a total of 40 behind the maximum length is passed over at once
      ∧ (inFrame .counted 63 63 (some 40)).lines[(0 : Fin 8)].current = some { current with count := 63, total := some 40 } := by
  decide +kernel

/-- No page is free; line 0 has a frame without a pin in its history, or none, and receives nothing, or a frame that
needs a page. -/
def exhausted (s : State) (history : List Nat) : State :=
  { s with capture := { s.capture with free := [], hist := s.capture.hist.set 0 history } }

theorem witness_exhaustion :
    let hunting := lineIs (framed base) gapLine
    (exhausted hunting [4]).capture.free = [] ∧ (exhausted hunting [4]).lines[(0 : Fin 8)].reception = .hunt
      ∧ (exhausted hunting [4]).lines[(0 : Fin 8)] = gapLine ∧ gapLine.state = .active ∧ gapLine.awaitHigh = false
      ∧ gapLine.awaiting.length ≤ 2 ∧ gapLine.cfg.mode = .gap ∧ 1 ≤ gapLine.cfg.maxLength
      ∧ (exhausted hunting [4]).lines[(0 : Fin 8)].cfg.policy = .ring ∧ 4 ∈ (exhausted hunting [4]).capture.hist[(0 : Fin 8)]
      ∧ (exhausted hunting [4]).capture.frame? 4 = some frame ∧ frame.pins = 0 ∧ frame.pages ≠ []
      ∧ (∀ j : Fin 8, (exhausted hunting []).capture.hist[j] = [])
      ∧ (exhausted (inFrame .gap 63 64 none) []).lines[(0 : Fin 8)].current = some { current with count := 63 }
      ∧ 63 < (exhausted (inFrame .gap 63 64 none) []).lines[(0 : Fin 8)].cfg.maxLength ∧ 64 % 64 = 0
      ∧ (exhausted (inFrame .gap 63 64 none) []).capture.frame? 4
        = some { frame with length := 64, place := .inReception } := by
  decide +kernel

theorem witness_start_line :
    lineOf 0 = some 0 ∧ (taking base (.startLine 0 0 true)).Executing (.startLine 0 0 true)
      ∧ (taking base (.startLine 0 0 true)).lines[(0 : Fin 8)].state = .stopped
      ∧ (taking (lineIs base gapLine) (.startLine 0 0 true)).Executing (.startLine 0 0 true)
      ∧ (taking (lineIs base gapLine) (.startLine 0 0 true)).lines[(0 : Fin 8)].state ≠ .stopped :=
  ⟨rfl, taking_executes _ _, by decide +kernel, taking_executes _ _, by decide +kernel⟩

theorem witness_line_state_notices :
    let s := taking (sending base) (.startLine 0 0 true)
    let t := taking (sending (lineIs base gapLine)) (.stopLine 0 0)
    s.Executing (.startLine 0 0 true) ∧ s.lines[(0 : Fin 8)].state = .stopped ∧ s.Queues 1 [2]
      ∧ s.link.lineMask.getLsbD 0 = true ∧ t.Executing (.stopLine 0 0) ∧ t.lines[(0 : Fin 8)].state = .active
      ∧ t.Queues 1 [2] ∧ t.link.lineMask.getLsbD 0 = true := by
  refine ⟨taking_executes _ _, ?_, ?_, ?_, taking_executes _ _, ?_, ?_, ?_⟩ <;>
    first | decide +kernel | (unfold State.Queues; decide +kernel)

theorem witness_stop_line :
    (taking (lineIs base receiving) (.stopLine 0 0)).Executing (.stopLine 0 0)
      ∧ (taking (lineIs base receiving) (.stopLine 0 0)).lines[(0 : Fin 8)].storing = true
      ∧ (taking (lineIs base gapLine) (.stopLine 0 0)).lines[(0 : Fin 8)].state ≠ .stopped
      ∧ (taking (lineIs base gapLine) (.stopLine 0 0)).lines[(0 : Fin 8)].state ≠ .stopping
      ∧ (taking base (.stopLine 0 0)).lines[(0 : Fin 8)].state = .stopped :=
  ⟨taking_executes _ _, by decide +kernel⟩

/-- The defaults of R22 as CONFIGURE_LINE carries them, with an idle time. -/
def configuration (idle : Byte) : LineArg :=
  { divisor := 104, dataBits := 8, parity := 0, stopBits := 1, mode := 0, idleTime := idle, startByte := 2,
    endByte := 3, escapeByte := 0x10, lenOffset := 0, addend := 0, check := 0, maxLength := 256, keepBad := 1,
    policy := 0, depth := 32, sheddable := 1 }

theorem witness_configure_line :
    (taking base (.configureLine 0 0 (configuration 12))).Executing (.configureLine 0 0 (configuration 12))
      ∧ base.lines[(0 : Fin 8)].state = .stopped ∧ base.capture.handed[(0 : Fin 8)] = []
      ∧ lineConfigOf (configuration 11) = none
      ∧ lineConfigOf (configuration 12) = some { LineConfig.default with idleTime := 12 }
      ∧ (lineIs base gapLine).lines[(0 : Fin 8)].state ≠ .stopped
      ∧ { base.capture with handed := base.capture.handed.set 0 [4] }.handed[(0 : Fin 8)] ≠ [] :=
  ⟨taking_executes _ _, by decide +kernel⟩

theorem witness_line_counts :
    (taking base (.getLineCounts 0 7 1)).Executing (.getLineCounts 0 7 1)
      ∧ (taking base (.getLineCounts 0 8 2)).Executing (.getLineCounts 0 8 2)
      ∧ lineOf 7 = some 7 ∧ (1 : Byte).toNat ≤ 1 ∧ lineOf 8 = none ∧ 2 ≤ (2 : Byte).toNat :=
  ⟨taking_executes _ _, taking_executes _ _, by decide⟩

/-! ### Witnesses: capture memory and the match table -/

theorem witness_pool_mark :
    (taking base (.setPoolMark 0 512)).Executing (.setPoolMark 0 512)
      ∧ (taking base (.setPoolMark 0 513)).Executing (.setPoolMark 0 513) ∧ (512#16).toNat ≤ 512
      ∧ 512 < (513#16).toNat ∧ (taking (sending base) (.setPoolMark 0 512)).Queues 9 [2, 3] := by
  refine ⟨taking_executes _ _, taking_executes _ _, by decide, by decide, ?_⟩
  unfold State.Queues
  decide +kernel

theorem witness_lists :
    let s := framed base
    let c := { s.capture with hist := s.capture.hist.set 0 [4] }
    lineOf 7 = some 7 ∧ 8 ≤ (8 : Byte).toNat ∧ (1 : Byte).toNat < 2 ∧ (32 : Byte).toNat ≤ 32 ∧ 32 < (33 : Byte).toNat
      ∧ (taking s (.listFrames 0 7 1 0 0 32)).Executing (.listFrames 0 7 1 0 0 32)
      ∧ ((c.handed[(0 : Fin 8)] ++ c.hist[(0 : Fin 8)]).dropWhile fun id => c.seqOf id != 9).head? = some 4
      ∧ c.frame? 4 = some frame
      ∧ ((c.handed[(0 : Fin 8)] ++ c.hist[(0 : Fin 8)]).dropWhile fun id => c.seqOf id != 8) = [] := by
  refine ⟨by decide, by decide, by decide, by decide, by decide, taking_executes _ _, ?_⟩
  decide +kernel

theorem witness_take_frames :
    (taking (lineIs base feedLine) (.takeFrames 0 0 32)).Executing (.takeFrames 0 0 32)
      ∧ (lineIs base feedLine).lines[(0 : Fin 8)].cfg.policy = .feed ∧ base.lines[(0 : Fin 8)].cfg.policy = .ring
      ∧ 1 ≤ (1 : Byte).toNat ∧ (32 : Byte).toNat ≤ 32 := ⟨taking_executes _ _, by decide +kernel⟩

theorem witness_release_frames :
    let s := lineIs (framed base) feedLine
    let c := { s.capture with handed := s.capture.handed.set 0 [4] }
    (taking s (.releaseFrames 0 0 9)).Executing (.releaseFrames 0 0 9) ∧ s.lines[(0 : Fin 8)].cfg.policy = .feed
      ∧ s.capture.fromSeq 9 s.capture.handed[(0 : Fin 8)] = none
      ∧ c.fromSeq 9 c.handed[(0 : Fin 8)] = some [4] := ⟨taking_executes _ _, by decide +kernel⟩

theorem witness_write_entry :
    (taking base (.writeEntry 0 15 external)).Executing (.writeEntry 0 15 external) ∧ entryOf 15 = some 15
      ∧ external.ok 15 = true ∧ entryOf 16 = none ∧ (∀ e, entryOf 0 = some e → unusedDef.ok e = false) :=
  ⟨taking_executes _ _, by decide +kernel⟩

theorem witness_clear_entry :
    (taking base (.clearEntry 0 15)).Executing (.clearEntry 0 15)
      ∧ (taking base (.clearEntry 0 16)).Executing (.clearEntry 0 16) ∧ 16 ≤ (16 : Byte).toNat ∧ (15 : Byte).toNat < 16 :=
  ⟨taking_executes _ _, taking_executes _ _, by decide⟩

theorem witness_matching_entry :
    (framed base).matcher.matchesFrame direct frame ((framed base).capture.frameBytes frame) 40 = true
      ∧ (framed base).matcher.matchesFrame { direct with sense := 1 } frame ((framed base).capture.frameBytes frame) 40 = false
      ∧ direct.status.toNat ≤ 2 ∧ { direct with sense := 1 }.sense.toNat ≤ 1 ∧ (2 : Byte).toNat ≤ 2 := by decide +kernel

/-- Slot 4's frame awaits classification on line 0. -/
def awaiting (l : Line) : State :=
  let s := lineIs (framed base) { l with awaiting := [4] }
  { s with capture := { s.capture with slots := [(4, { frame with place := .inReception })] } }

theorem witness_unmatched_frame :
    let s := awaiting gapLine
    (∀ e : Fin 16, s.matcher.entries[e].body.enabled ≠ 1) ∧ s.lines[(0 : Fin 8)].awaiting = 4 :: []
      ∧ s.capture.frame? 4 = some { frame with place := .inReception } ∧ frame.pins = 0
      ∧ isBad frame.check frame.flags = false ∧ s.lines[(0 : Fin 8)].state = .active
      ∧ s.lines[(0 : Fin 8)].cfg.policy = .ring
      ∧ (s.capture.hist[(0 : Fin 8)]).length < s.lines[(0 : Fin 8)].cfg.depth
      ∧ (∀ k : Fin 4, s.inc.table[k] = none) ∧ s.inc.opened = [] ∧ s.arrayIdle = false
      ∧ (awaiting feedLine).lines[(0 : Fin 8)].cfg.policy = .feed
      ∧ (awaiting feedLine).lines[(0 : Fin 8)].cfg.depth = 2
      ∧ (awaiting { gapLine with cfg := { gapLine.cfg with keepBad := false } }).lines[(0 : Fin 8)].cfg.keepBad = false
      ∧ isBad .bad frame.flags = true := by decide +kernel

/-- The same, and slot 5 holds another frame: line 0's history, up to the depth 1. -/
def displacing : State :=
  let s := awaiting { gapLine with cfg := { gapLine.cfg with depth := 1 } }
  { s with capture := { s.capture with
      slots := s.capture.slots ++ [(5, { frame with pages := [8] })], hist := s.capture.hist.set 0 [5] } }

theorem witness_displacement :
    displacing.capture.hist[(0 : Fin 8)] = 5 :: [] ∧ displacing.lines[(0 : Fin 8)].cfg.depth ≤ 1 ∧ 5 ≠ 4
      ∧ displacing.capture.frame? 5 = some { frame with pages := [8] } := by decide +kernel

/-- A good frame awaits, and entry 5 matches it, with an action. -/
def matching (action : Byte) : State := entryIs (awaiting gapLine) { direct with action := action }

theorem witness_matching_frame :
    let s := matching 2
    s.framesPlaced ∧ s.lines[(0 : Fin 8)].awaiting = 4 :: []
      ∧ (∀ d : Fin 16, d ≠ 5 → s.matcher.entries[d].body.enabled ≠ 1)
      ∧ s.matcher.matchesFrame s.matcher.entries[(5 : Fin 16)].body { frame with place := .inReception }
        (s.capture.frameBytes frame) s.time.tod = true
      ∧ s.arrayIdle = false ∧ (∀ k : Fin 4, s.inc.table[k] = none) ∧ s.inc.freeSlot = some 0
      ∧ s.matcher.entries[(5 : Fin 16)].holdoffEnd = none ∧ s.matcher.entries[(5 : Fin 16)].body.action = 2
      ∧ (matching 0).matcher.entries[(5 : Fin 16)].body.action = 0
      ∧ (matching 1).matcher.entries[(5 : Fin 16)].body.action = 1
      ∧ (∀ k : Fin 4, { s.inc with table := Vector.replicate 4 (some (incident .queued)) }.table[k] ≠ none)
      ∧ { s.matcher.entries[(5 : Fin 16)] with holdoffEnd := some 9 }.holdoffEnd ≠ none := by
  refine ⟨?_, by decide +kernel⟩
  unfold State.framesPlaced
  decide +kernel

/-- The incident in slot 2 collects frames of line 0, with a budget. -/
def joining (budget : Nat) : State :=
  incidentIs (awaiting gapLine) { incident .collecting with captureSet := 1, budget := budget, postCount := 1 }

theorem witness_joining_frame :
    (joining 32596).framesPlaced ∧ (joining 32596).inc.opened = [2]
      ∧ (joining 32596).inc.table[(2 : Fin 4)]
        = some { incident .collecting with captureSet := 1, budget := 32596, postCount := 1 }
      ∧ (1#8).getLsbD 0 = true ∧ (joining 32596).arrayIdle = false
      ∧ 32596 + (24 + (frame.length + 3) / 4 * 4) ≤ 32624 ∧ ¬ 32597 + (24 + (frame.length + 3) / 4 * 4) ≤ 32624 := by
  refine ⟨?_, by decide +kernel⟩
  unfold State.framesPlaced
  decide +kernel

theorem witness_joining_pins : (joining 32596).pinsAgree := by
  refine ⟨fun k n h => ?_, fun id f h => ?_⟩
  · have all : ∀ k : Fin 4, ((joining 32596).inc.table[k]).all fun n => decide (n.frames = []) := by decide +kernel
    have one := all k
    rw [h] at one
    have e : n.frames = [] := of_decide_eq_true one
    rw [e]
    exact ⟨List.nodup_nil, fun _ m => absurd m List.not_mem_nil⟩
  · have at4 : (if 4 = id then some { frame with place := Place.inReception } else none) = some f := h
    split at at4
    next e => cases e; cases at4; decide +kernel
    next => cases at4

theorem witness_rising_edge :
    base.matcher.lastAccepted = none ∧ 10 ≤ ((10 : Stamp) - 0).toNat ∧ ((9 : Stamp) - 0).toNat < 10 := by decide +kernel

/-- A rising edge waits, and entry 5 is EXTERNAL. -/
def edged : State :=
  { entryIs base external with matcher := { (entryIs base external).matcher with risingEdge := some ⟨0, 0⟩ } }

theorem witness_accepted_edge :
    edged.matcher.risingEdge = some ⟨0, 0⟩ ∧ external.kind = 3 ∧ external.enabled = 1 ∧ external.afterOn = 0
      ∧ external.action = 2 ∧ edged.matcher.entries[(5 : Fin 16)] = .fresh external ∧ external.postTime ≠ 0
      ∧ (∀ d : Fin 16, d ≠ 5 → edged.matcher.entries[d].body.enabled ≠ 1) ∧ edged.inc.freeSlot = some 0
      ∧ edged.arrayIdle = false := by decide +kernel

/-- Every incident slot is taken. -/
def crowded (s : State) : State := { s with inc := { s.inc with table := Vector.replicate 4 (some (incident .queued)) } }

theorem witness_openings :
    edged.framesPlaced ∧ (entryIs base external).framesPlaced ∧ (sending edged).Queues 1 [5]
      ∧ (sending (matching 2)).Queues 2 [5, 6] ∧ (sending (joining 32596)).Queues 1 [6]
      ∧ (sending (crowded edged)).Queues 1 [4] ∧ (crowded edged).arrayIdle = false
      ∧ (∀ k : Fin 4, (crowded edged).inc.table[k] ≠ none) := by
  refine ⟨?_, ?_, ?_⟩
  · unfold State.framesPlaced
    decide +kernel
  · unfold State.framesPlaced
    decide +kernel
  · unfold State.Queues
    decide +kernel

theorem witness_expiries :
    ({ base.matcher with entries := base.matcher.entries.set 5 { Entry.fresh external with holdoffEnd := some 9 } }.entries[
        (5 : Fin 16)]).holdoffEnd = some 9
      ∧ (incidentIs base { incident .collecting with postTimer := some 9 }).inc.table[(2 : Fin 4)]
        = some { incident .collecting with postTimer := some 9 }
      ∧ (incidentIs base { incident .collecting with postTimer := some 9 }).arrayIdle = false := by decide +kernel

/-! ### Witnesses: incidents -/

theorem witness_force_trigger :
    entryOf 5 = some 5 ∧ (taking (entryIs base external) (.forceTrigger 0 5)).Executing (.forceTrigger 0 5)
      ∧ (entryIs base external).matcher.entries[(5 : Fin 16)].body.kind = 3
      ∧ (entryIs base external).inc.freeSlot = some 0 ∧ (entryIs base external).arrayIdle = false
      ∧ (base.matcher.entries[(5 : Fin 16)].body.kind = 0)
      ∧ (∀ k : Fin 4, { base.inc with table := Vector.replicate 4 (some (incident .collecting)) }.table[k] ≠ none) :=
  ⟨rfl, taking_executes _ _, by decide +kernel⟩

theorem witness_close_incident :
    (taking (incidentIs base (incident .collecting)) (.closeIncident 0 1)).Executing (.closeIncident 0 1)
      ∧ (incidentIs base (incident .collecting)).inc.slotOf 1 = some 2
      ∧ (incidentIs base (incident .collecting)).inc.table[(2 : Fin 4)] = some (incident .collecting)
      ∧ (incidentIs base (incident .collecting)).arrayIdle = false ∧ (incident .queued).state ≠ .collecting
      ∧ (incidentIs base (incident .queued)).inc.slotOf 1 = some 2 ∧ base.inc.slotOf 1 = none :=
  ⟨taking_executes _ _, by decide +kernel⟩

theorem witness_cancel_incident :
    (taking (incidentIs base (incident .committing)) (.cancelIncident 0 1)).Executing (.cancelIncident 0 1)
      ∧ (incidentIs base (incident .committing)).inc.slotOf 1 = some 2
      ∧ (incidentIs base (incident .committing)).inc.table[(2 : Fin 4)] = some (incident .committing)
      ∧ (incidentIs base (incident .collecting)).inc.table[(2 : Fin 4)] = some (incident .collecting)
      ∧ (incident .collecting).state ≠ .committing ∧ (incidentIs base (incident .collecting)).arrayIdle = false :=
  ⟨taking_executes _ _, by decide +kernel⟩

/-! ### Witnesses: the store and the records -/

/-- A discard mark is being programmed in sector 3. -/
def marking : State :=
  { base with store := { base.store with op := some (.program ⟨3, 68, [0x0F], .mark, some 7, 0⟩), holder := some .hostItem } }

theorem witness_programming :
    (∃ t, exec (.programUnitEnd []) marking = .next t) ∧ (∃ t, exec (.programUnitTimeout [0xFF]) marking = .next t)
      ∧ marking.store.op = some (.program ⟨3, 68, [0x0F], .mark, some 7, 0⟩)
      ∧ ((67 : Nat) < 68 ∧ 68 + [(0x0F : Byte)].length ≤ 69) := ⟨⟨_, rfl⟩, ⟨_, rfl⟩, rfl, by decide⟩

/-- The array is idle and the incident in slot 2 waits for its commit, with sector 3 as given and the others alike. -/
def granting (v w : Sector) : State :=
  let s := incidentIs base (incident .queued)
  { s with
    inc := { s.inc with queue := [2] }
    store := { s.store with holder := none, sectors := (Vector.replicate 64 v).set 3 w } }

/-- A FULL sector with a live record. -/
def fullSector : Sector := { Sector.factory with state := .full, live := 1, seq := some 4 }

/-- An OPEN sector with room up to its end. -/
def openSector (room : Nat) : Sector := { fullSector with state := .opened, fillOffset := some (32768 - room) }

/-- The hypotheses of a grant. -/
abbrev Granting (s : State) : Prop :=
  s.arrayIdle = true ∧ s.store.work = [] ∧ s.records.full = none ∧ s.inc.queue = 2 :: []
    ∧ s.inc.table[(2 : Fin 4)] = some (incident .queued)

theorem witness_commit_grant :
    Granting (granting fullSector (openSector 80)) ∧ (granting fullSector (openSector 80)).store.openSector = some 3
      ∧ 80 ≤ 32768 - ((openSector 80).fillOffset).getD 32768
      ∧ Granting (granting Sector.factory (openSector 76)) ∧ ¬ 80 ≤ 32768 - ((openSector 76).fillOffset).getD 32768
      ∧ ((granting Sector.factory (openSector 76)).modSector 3 Sector.close).store.toOpen = some 0
      ∧ (base.records.nextSerial ≠ 0xFFFFFFFF#32 ∧ base.records.index.length < 1024) := by decide +kernel

/-- The array is idle, with host work and with sectors whose erase is pending. -/
def idling (work : List WorkItem) (pending : Bool) : State :=
  { base with store := { base.store with
      holder := none, work := work
      sectors := (Vector.replicate 64 Sector.factory).set 3 { Sector.factory with state := .dirty, pending := pending } } }

theorem witness_grants_in_order :
    base.arrayIdle = false ∧ (idling [.erase 3, .mark 7 4 64] true).arrayIdle = true
      ∧ (idling [.erase 3, .mark 7 4 64] true).store.work = .erase 3 :: [.mark 7 4 64]
      ∧ (idling [.mark 7 4 64] true).arrayIdle = true ∧ (idling [.mark 7 4 64] true).store.work = .mark 7 4 64 :: []
      ∧ (idling [] true).arrayIdle = true ∧ (idling [] true).store.work = [] ∧ (idling [] true).inc.queue = []
      ∧ ((idling [] true).store.sectors[(3 : Fin 64)].pending = true
        ∧ ∀ y : Fin 64, y < 3 → (idling [] true).store.sectors[y].pending = false)
      ∧ (∀ y : Fin 64, (idling [] false).store.sectors[y].pending = false) := by decide +kernel

theorem witness_commit_grant_without_room :
    Granting (granting fullSector fullSector) ∧ (granting fullSector fullSector).store.openSector = none
      ∧ (granting fullSector fullSector).store.toOpen = none ∧ (granting fullSector fullSector).store.toOverwrite = some 0
      ∧ (granting fullSector fullSector).store.policy = .stop
      ∧ { (granting fullSector fullSector).store with policy := .overwriteOldest }.toOverwrite = some 0
      ∧ 1024 ≤ (List.replicate 1024 entry3).length := by decide +kernel

/-- The header of sector 3 is being programmed for the incident in slot 2; the other sectors are in one state. -/
def heading (v : Sector) : State :=
  let s := incidentIs base (incident .queued)
  { s with
    store := { s.store with
      op := some (.program ⟨3, 0, sectorHeader 4, .commit, none, 0⟩), holder := some .commit
      sectors := (Vector.replicate 64 v).set 3 Sector.factory }
    records := { s.records with commit := some ⟨some 2, 80, .stop, .reservation (some (3, 4)), false⟩ } }

theorem witness_header_unit :
    let s := heading Sector.factory
    let p : ProgramOp := ⟨3, 0, sectorHeader 4, .commit, none, 0⟩
    s.store.op = some (.program p) ∧ p.cause = .commit ∧ (s.time.elapsed - p.since).toNat ≤ 3000
      ∧ s.store.holder = some .commit
      ∧ s.records.commit = some ⟨some 2, 80, .stop, .reservation (some (3, 4)), false⟩
      ∧ s.inc.table[(2 : Fin 4)] = some (incident .queued) ∧ 80 ≤ (80 : Nat) ∧ (80 : Nat) ≤ 32704
      ∧ (∀ y : Fin 64, s.store.sectors[y].state ≠ .opened) ∧ s.records.nextSerial ≠ 0xFFFFFFFF#32
      ∧ s.records.index.length < 1024 ∧ s.store.read = none ∧ s.records.full = none
      ∧ (s.modSector 3 Sector.spoilt).store.toOpen = some 0
      ∧ ((heading { Sector.factory with state := .full, live := 1 }).modSector 3 Sector.spoilt).store.toOpen = none := by
  decide +kernel

theorem witness_header_unit_cells :
    (heading Sector.factory).UnitPasses ⟨3, 0, sectorHeader 4, .commit, none, 0⟩ []
      ∧ ¬ (heading Sector.factory).UnitPasses ⟨3, 0, sectorHeader 4, .commit, none, 0⟩ [0xFF] := by
  unfold State.UnitPasses
  decide +kernel

/-- The programming phase of a record of 80 bytes in sector 3, its state unit in progress. -/
def lastUnit : Programming := ⟨7, 3, 64, 80, 1, .complete⟩

/-- The commit that programs it. -/
def lastCommit : Commit := ⟨some 2, 80, .stop, .programming lastUnit, false⟩

/-- The state unit of a commit is being programmed. -/
def retaining : State :=
  { incidentIs base (incident .committing) with
    store := { base.store with op := some (.program ⟨3, 68, [0x3F], .commit, some 7, 0⟩), holder := some .commit }
    records := { base.records with commit := some lastCommit } }

theorem witness_state_unit :
    retaining.store.op = some (.program ⟨3, 68, [0x3F], .commit, some 7, 0⟩)
      ∧ (retaining.time.elapsed - 0).toNat ≤ 3000 ∧ retaining.records.commit = some lastCommit
      ∧ lastCommit.incident = some 2 ∧ lastCommit.phase = .programming lastUnit ∧ lastUnit.unit = .complete
      ∧ retaining.inc.table[(2 : Fin 4)] = some (incident .committing) ∧ retaining.store.work = []
      ∧ retaining.inc.queue = [] ∧ (∀ x : Fin 64, retaining.store.sectors[x].pending = false) := by decide +kernel

/-- Another unit of that commit is in hand. -/
def unitInHand (u : UnitKind) (n : Incident) : State :=
  let s := incidentIs retaining n
  { s with records := { s.records with commit := some { lastCommit with phase := .programming { lastUnit with unit := u } } } }

/-- The unit that is being programmed. -/
def unitOp : ProgramOp := ⟨3, 68, [0x3F], .commit, some 7, 0⟩

theorem witness_commit_units (u : UnitKind) (n : Incident) :
    (unitInHand u n).Programs unitOp { lastCommit with phase := .programming { lastUnit with unit := u } }
        { lastUnit with unit := u } 2 n
      ∧ (unitInHand u n).store.read = none ∧ (unitOp.since = 0 ∧ (unitInHand u n).time.elapsed = 0) :=
  ⟨⟨rfl, rfl, rfl, rfl, rfl, rfl, rfl⟩, rfl, rfl, rfl⟩

theorem witness_commit_unit_cells :
    (unitInHand .complete (incident .committing)).UnitPasses unitOp []
      ∧ (unitInHand .complete (incident .committing)).UnitFails unitOp (.programUnitEnd [0xFF])
      ∧ (unitInHand .complete (incident .committing)).UnitFails unitOp (.programUnitTimeout []) := by
  refine ⟨?_, Or.inl ⟨[0xFF], rfl, by decide +kernel, ?_⟩, Or.inr ⟨[], rfl⟩⟩ <;> unfold State.UnitPasses <;> decide +kernel

theorem witness_commit_notices :
    (sending retaining).Queues 2 [8, 11] ∧ (sending retaining).Queues 1 [7] ∧ (sending marking).Queues 1 [11]
      ∧ (taking (sending (incidentIs base (incident .collecting))) (.cancelIncident 0 1)).Queues 1 [8]
      ∧ (taking (sending (incidentIs base (incident .collecting))) (.closeIncident 0 1)).Queues 1 [6]
      ∧ (sending marking).store.op = some (.program ⟨3, 68, [0x0F], .mark, some 7, 0⟩)
      ∧ { incident .committing with cancelPending := true }.cancelPending = true
      ∧ { incident .committing with retried := true }.retried = true := by
  unfold State.Queues
  decide +kernel

theorem witness_erase_ends :
    (sending erasing).store.op = some (.erase ⟨3, .reclaim, 0, some 0⟩)
      ∧ 0 + ((sending erasing).time.elapsed - 0).toNat ≤ 250000 ∧ Cause.reclaim ≠ .overwrite
      ∧ (sending erasing).store.work = [] ∧ (sending erasing).inc.queue = []
      ∧ (∀ x : Fin 64, (sending erasing).store.sectors[x].pending = false) ∧ (sending erasing).link.tx ≠ none
      ∧ (sending erasing).link.notices.length < 15 ∧ (sending erasing).link.kindMask.getLsbD 11 = true
      ∧ (sending erasing).link.kindMask.getLsbD 12 = true := by decide +kernel

/-- The store scans. -/
def scanning : State := { base with store := { base.store with state := .scanning, holder := none } }

theorem witness_requests_while_scanning :
    scanning.store.state = .scanning
      ∧ (taking scanning (.setProtection 0 63 2)).Executing (.setProtection 0 63 2)
      ∧ (taking scanning (.setStorePolicy 0 1)).Executing (.setStorePolicy 0 1)
      ∧ (taking scanning (.listRecords 0 0 63 40)).Executing (.listRecords 0 0 63 40)
      ∧ (taking scanning (.readRecord 0 0 0)).Executing (.readRecord 0 0 0) :=
  ⟨rfl, taking_executes _ _, taking_executes _ _, taking_executes _ _, taking_executes _ _⟩

theorem witness_store_policy :
    (taking base (.setStorePolicy 0 1)).Executing (.setStorePolicy 0 1) ∧ (1 : Byte).toNat ≤ 1
      ∧ base.store.state = .ready ∧ base.store.holder ≠ none := ⟨taking_executes _ _, by decide +kernel⟩

theorem witness_protection :
    (taking base (.setProtection 0 63 2)).Executing (.setProtection 0 63 2) ∧ sectorOf 63 = some 63
      ∧ protectionOf 2 = some .lockedDown ∧ base.store.state = .ready ∧ base.store.holder ≠ none
      ∧ (sectorIs base { Sector.factory with protection := .lockedDown }).store.sectors[(3 : Fin 64)].protection = .lockedDown
      ∧ erasing.store.sectors[(3 : Fin 64)].state = .erasing
      ∧ (sectorIs base { Sector.factory with protection := .locked, state := .dirty }).store.sectors[(3 : Fin 64)].state
        = .dirty := ⟨taking_executes _ _, by decide +kernel⟩

theorem witness_erase_sector :
    (taking base (.eraseSector 0 3)).Executing (.eraseSector 0 3) ∧ sectorOf 3 = some 3 ∧ base.store.state = .ready
      ∧ base.store.holder ≠ none
      ∧ (sectorIs base { Sector.factory with protection := .locked }).store.sectors[(3 : Fin 64)].protection ≠ .unlocked
      ∧ (sectorIs base { Sector.factory with pending := true }).store.sectors[(3 : Fin 64)].pending = true
      ∧ 8 ≤ { base.store with work := List.replicate 8 (.erase 4) }.work.length := ⟨taking_executes _ _, by decide +kernel⟩

theorem witness_erase_and_discard_on_an_idle_array :
    let s := { base with store := { base.store with holder := none } }
    let d := { indexed base with store := { (indexed base).store with holder := none } }
    (taking s (.eraseSector 0 3)).Executing (.eraseSector 0 3) ∧ (taking d (.discardRecord 0 7)).Executing (.discardRecord 0 7)
      ∧ (taking s (.eraseSector 0 3)).arrayIdle = true ∧ s.store.work = []
      ∧ s.store.sectors[(3 : Fin 64)].protection = .unlocked ∧ s.store.sectors[(3 : Fin 64)].state ≠ .erasing
      ∧ s.store.sectors[(3 : Fin 64)].pending = false ∧ (taking d (.discardRecord 0 7)).arrayIdle = true
      ∧ d.store.work = [] ∧ (d.records.index.find? fun e => e.serial == 7) = some entry3
      ∧ d.store.sectors[(3 : Fin 64)].protection = .unlocked :=
  ⟨taking_executes _ _, taking_executes _ _, by decide +kernel⟩

theorem witness_discard_record :
    (taking (indexed base) (.discardRecord 0 7)).Executing (.discardRecord 0 7)
      ∧ ((indexed base).records.index.find? fun e => e.serial == 7) = some entry3
      ∧ (indexed base).store.sectors[(3 : Fin 64)].protection = .unlocked ∧ (indexed base).store.state = .ready
      ∧ (indexed base).store.holder ≠ none ∧ (base.records.index.find? fun e => e.serial == 7) = none :=
  ⟨taking_executes _ _, by decide +kernel⟩

theorem witness_record_read :
    (indexed base).store.state = .ready ∧ (indexed base).records.entryOf 7 = some entry3
      ∧ (taking (indexed base) (.readRecord 0 7 0)).Executing (.readRecord 0 7 0)
      ∧ (taking (indexed base) (.readRecord 0 7 1)).Executing (.readRecord 0 7 1)
      ∧ (taking (indexed base) (.verifyRecord 0 7)).Executing (.verifyRecord 0 7)
      ∧ (0#16).toNat ≤ entry3.frameCount ∧ entry3.frameCount < (1#16).toNat :=
  ⟨by decide +kernel, by decide +kernel, taking_executes _ _, taking_executes _ _, taking_executes _ _, by decide⟩

/-- A record read is in service for a request row. -/
def reading (i : Instr) (job : ReadJob) : State :=
  { taking (indexed base) i with store := { (indexed base).store with read := some job, holder := none } }

theorem witness_array_read :
    let s := reading (.verifyRecord 0 7) (.verify entry3)
    let r := reading (.readRecord 0 7 0) (.read entry3 0)
    s.store.read = some (.verify entry3) ∧ s.link.handler = .executing (reqOf (.verifyRecord 0 7))
      ∧ r.store.read = some (.read entry3 0) ∧ r.link.handler = .executing (reqOf (.readRecord 0 7 0))
      ∧ s.store.programming = false ∧ s.records.commit = none ∧ s.store.work = []
      ∧ s.inc.queue = [] ∧ (∀ x : Fin 64, s.store.sectors[x].pending = false) := by decide +kernel

theorem witness_scan : scanning.store.state = .scanning ∧ scanning.memoriesCanonical = true
    ∧ (∀ x : Fin 64, scanning.store.sectors[x].eraseComplete = true) := by decide +kernel

theorem witness_blank_sector : ∀ a, (⟨.blank, []⟩ : Memory).read a = 0xFF#8 := fun _ => rfl

/-- A sector of body offset 64 with the record of an incident without frames, its state byte given. -/
def recorded (mark : Byte) : Memory :=
  (⟨.blank, []⟩ : Memory).writeBytes 64 ((base.capture.recordImage (incident .committing) 7 80).set 4 mark)

theorem witness_walk :
    (base.capture.recordImage (incident .committing) 7 80).length = 80 + (incident .committing).budget
      ∧ 80 % 4 = 0 ∧ 64 + 80 ≤ 32768 ∧ (7 : Word) ≠ 0 ∧ (7 : Word) ≠ 0xFFFFFFFF#32
      ∧ (incident .committing).frames.length < 65536
      ∧ (recorded 0x3F).readRange 64 80 = (base.capture.recordImage (incident .committing) 7 80).set 4 0x3F
      ∧ (recorded 0x0F).readRange 64 80 = (base.capture.recordImage (incident .committing) 7 80).set 4 0x0F
      ∧ (recorded 0x7F).readRange 64 80 = (base.capture.recordImage (incident .committing) 7 80).set 4 0x7F := by
  decide +kernel

theorem witness_tail :
    (recorded 0x3F).wf = true ∧ (∀ a, 64 ≤ a → a < 64 + 64 → (⟨.blank, [(128, 0)]⟩ : Memory).read a = 0xFF#8)
      ∧ (⟨.blank, [(128, 0)]⟩ : Memory).read 128 ≠ 0xFF#8 ∧ (⟨.blank, [(128, 0)]⟩ : Memory).wf = true := by
  refine ⟨by decide +kernel, fun a _ h => ?_, by decide, by decide⟩
  show (if 128 = a then some (0 : Byte) else none).getD 0xFF#8 = 0xFF#8
  rw [if_neg (by omega)]
  rfl

end Sys2Proof.Tests
end

section
/-! PROOFS. What an event changes: one line and capture memory, then pool pressure, EVT_OUT and its notices. -/

namespace Sys2Proof.Machine

/-! ### One line and capture memory -/

/-- The state after an event that changes capture memory and one line. -/
def State.lineAt (s : State) (i : Fin 8) (c : Capture) (m : Line) : State :=
  { s with capture := c, lines := s.lines.set i m }

@[simp] theorem State.lineAt_same (s : State) (i : Fin 8) (c : Capture) (m : Line) : (s.lineAt i c m).lines[i] = m :=
  s.setLine_same i m

theorem State.lineAt_other (s : State) (i j : Fin 8) (h : j ≠ i) (c : Capture) (m : Line) :
    (s.lineAt i c m).lines[j] = s.lines[j] := s.setLine_other i j h m

@[simp] theorem State.lineAt_capture (s : State) (i : Fin 8) (c : Capture) (m : Line) : (s.lineAt i c m).capture = c := rfl
@[simp] theorem State.lineAt_matcher (s : State) (i : Fin 8) (c : Capture) (m : Line) : (s.lineAt i c m).matcher = s.matcher := rfl
@[simp] theorem State.lineAt_inc (s : State) (i : Fin 8) (c : Capture) (m : Line) : (s.lineAt i c m).inc = s.inc := rfl
@[simp] theorem State.lineAt_store (s : State) (i : Fin 8) (c : Capture) (m : Line) : (s.lineAt i c m).store = s.store := rfl
@[simp] theorem State.lineAt_records (s : State) (i : Fin 8) (c : Capture) (m : Line) : (s.lineAt i c m).records = s.records := rfl
@[simp] theorem State.lineAt_time (s : State) (i : Fin 8) (c : Capture) (m : Line) : (s.lineAt i c m).time = s.time := rfl
@[simp] theorem State.lineAt_link (s : State) (i : Fin 8) (c : Capture) (m : Line) : (s.lineAt i c m).link = s.link := rfl

theorem State.modLine_eq_lineAt (s : State) (i : Fin 8) (f : Line → Line) :
    s.modLine i f = s.lineAt i s.capture (f s.lines[i]) := rfl

@[simp] theorem State.lineAt_modLine (s : State) (i : Fin 8) (c : Capture) (m : Line) (f : Line → Line) :
    (s.lineAt i c m).modLine i f = s.lineAt i c (f m) := by
  rw [State.modLine_eq_lineAt, State.lineAt_same]
  simp only [State.lineAt, Vector.set_set]

@[simp] theorem State.lineAt_setCurrent (s : State) (i : Fin 8) (c : Capture) (m : Line) (cur : CurrentFrame) :
    (s.lineAt i c m).setCurrent i cur = s.lineAt i c { m with current := some cur } := s.lineAt_modLine i c m _

@[simp] theorem State.lineAt_setCapture (s : State) (i : Fin 8) (c d : Capture) (m : Line) :
    { s.lineAt i c m with capture := d } = s.lineAt i d m := rfl

theorem State.lineAt_states (s : State) (i : Fin 8) (c : Capture) {m : Line} (h : m.state = s.lines[i].state)
    (j : Fin 8) : (s.lineAt i c m).lines[j].state = s.lines[j].state := by
  by_cases here : j = i
  · subst here; rw [State.lineAt_same, h]
  · rw [State.lineAt_other s i j here]

/-! ### Pool pressure takes a value (R18, R44) -/

/-- A change of pool pressure does to a line what the terms of statements say (R18). -/
theorem Line.underPressure_eq_pressed (l : Line) (before on : Bool) (h : on ≠ before) :
    l.underPressure on = l.pressed before on := by
  unfold Line.underPressure Line.pressed Line.enter
  rw [if_neg h]
  cases on
  · have notSus : (LineState.active == .suspended) = false := rfl
    have notShed : (LineState.active == .shed) = false := rfl
    simp [notSus, notShed]
  · have notSus : (LineState.shed == .suspended) = false := rfl
    simp [notSus]

theorem State.setPressure_line (s : State) (on : Bool) (j : Fin 8) :
    (s.setPressure on).lines[j] = s.lines[j].pressed s.capture.pressure on := by
  unfold State.setPressure
  split
  next same =>
    subst same
    exact (Line.pressed_unchanged _ _).symm
  next change => exact (vmap_get _ _ j).trans (Line.underPressure_eq_pressed _ _ _ change)

/-- Pool pressure and the lines are all that changes with it. -/
theorem State.setPressure_only (s : State) (on : Bool) :
    s.setPressure on
      = { s with capture := { s.capture with pressure := on }, lines := (s.setPressure on).lines } := by
  unfold State.setPressure
  split
  next same => rw [same]
  next => rfl

theorem State.setPressure_same (s : State) : s.setPressure s.capture.pressure = s := if_pos rfl

@[simp] theorem Line.pressed_awaiting (l : Line) (before on : Bool) : (l.pressed before on).awaiting = l.awaiting := by
  unfold Line.pressed; split_ifs <;> rfl
@[simp] theorem Line.pressed_counters (l : Line) (before on : Bool) : (l.pressed before on).counters = l.counters := by
  unfold Line.pressed; split_ifs <;> rfl
@[simp] theorem Line.pressed_reception (l : Line) (before on : Bool) : (l.pressed before on).reception = l.reception := by
  unfold Line.pressed; split_ifs <;> rfl
@[simp] theorem Line.pressed_current (l : Line) (before on : Bool) : (l.pressed before on).current = l.current := by
  unfold Line.pressed; split_ifs <;> rfl
@[simp] theorem Line.pressed_nextSeq (l : Line) (before on : Bool) : (l.pressed before on).nextSeq = l.nextSeq := by
  unfold Line.pressed; split_ifs <;> rfl

/-- Pool pressure clears no attention flag. -/
theorem Line.pressed_attention (l : Line) (before on : Bool) (h : l.attention = true) :
    (l.pressed before on).attention = true := by
  unfold Line.pressed
  split_ifs
  · exact h
  · rfl
  · exact h
  · exact h

/-- Pool pressure moves ACTIVE and SHED lines alone (R18). -/
theorem Line.pressed_unmoved (l : Line) (before on : Bool) (h : l.state ≠ .active) (g : l.state ≠ .shed) :
    l.pressed before on = l := by
  simp [Line.pressed, h, g]

theorem Line.pressed_stopped (l : Line) (before on : Bool) (h : l.state = .stopped) : l.pressed before on = l :=
  l.pressed_unmoved before on (h ▸ LineState.noConfusion) (h ▸ LineState.noConfusion)

theorem Line.pressed_suspended (l : Line) (before on : Bool) (h : l.state = .suspended) : l.pressed before on = l :=
  l.pressed_unmoved before on (h ▸ LineState.noConfusion) (h ▸ LineState.noConfusion)

/-! ### The evaluation of pool pressure after an event (R42, R43) -/

/-- The pressure that the evaluation after an event leaves. -/
def Capture.pressureSince (old c : Capture) : Bool :=
  if c.freeCount = old.freeCount then c.pressure else pressureAfter c.pressure c.freeCount c.lowMark

theorem State.evalPressure_eq (old s : State) :
    State.evalPressure old s = s.setPressure (Capture.pressureSince old.capture s.capture) := by
  unfold State.evalPressure Capture.pressureSince
  split
  next => exact s.setPressure_same.symm
  next => rfl

/-! ### What an event announces (R93, R200) -/

/-- An announcement changes EVT_OUT and the link alone. -/
theorem State.announce_only (old s : State) :
    State.announce old s = { s with inc := s.inc.evaluated, link := (State.announce old s).link } :=
  State.notifyAll_only _ _

theorem lineNotices_of_same_states (old s : State) (h : ∀ j : Fin 8, s.lines[j].state = old.lines[j].state) :
    lineNotices old s = [] :=
  List.filterMap_eq_nil_iff.mpr fun j _ => if_pos (h j).symm

/-- Without a change of a line state or of pool pressure there is no notice. -/
theorem State.announce_quiet (old s : State) (hl : ∀ j : Fin 8, s.lines[j].state = old.lines[j].state)
    (hp : s.capture.pressure = old.capture.pressure) : State.announce old s = { s with inc := s.inc.evaluated } := by
  unfold State.announce
  rw [lineNotices_of_same_states old s hl, Machine.pressureNotices, if_pos hp.symm]
  rfl

/-! ### The end of an event -/

/-- All that the end of an event does: pressure, EVT_OUT and the link. -/
theorem State.conclude_only (old s : State) :
    State.conclude old s
      = { s with
          capture := { s.capture with pressure := Capture.pressureSince old.capture s.capture }
          lines := (State.conclude old s).lines
          inc := s.inc.evaluated
          link := (State.conclude old s).link } := by
  unfold State.conclude
  rw [State.evalPressure_eq, State.announce_only, State.setPressure_only]

theorem State.conclude_line (old s : State) (j : Fin 8) :
    (State.conclude old s).lines[j]
      = s.lines[j].pressed s.capture.pressure (Capture.pressureSince old.capture s.capture) := by
  unfold State.conclude
  rw [State.announce_only, State.evalPressure_eq]
  exact State.setPressure_line _ _ j

@[simp] theorem State.conclude_free (old s : State) : (State.conclude old s).capture.free = s.capture.free := by
  rw [State.conclude_only]
@[simp] theorem State.conclude_slots (old s : State) : (State.conclude old s).capture.slots = s.capture.slots := by
  rw [State.conclude_only]
@[simp] theorem State.conclude_hist (old s : State) : (State.conclude old s).capture.hist = s.capture.hist := by
  rw [State.conclude_only]
@[simp] theorem State.conclude_handed (old s : State) : (State.conclude old s).capture.handed = s.capture.handed := by
  rw [State.conclude_only]
@[simp] theorem State.conclude_mem (old s : State) : (State.conclude old s).capture.mem = s.capture.mem := by
  rw [State.conclude_only]
@[simp] theorem State.conclude_matcher (old s : State) : (State.conclude old s).matcher = s.matcher := by
  rw [State.conclude_only]
@[simp] theorem State.conclude_inc (old s : State) : (State.conclude old s).inc = s.inc.evaluated := by
  rw [State.conclude_only]
@[simp] theorem State.conclude_store (old s : State) : (State.conclude old s).store = s.store := by
  rw [State.conclude_only]
@[simp] theorem State.conclude_records (old s : State) : (State.conclude old s).records = s.records := by
  rw [State.conclude_only]
@[simp] theorem State.conclude_time (old s : State) : (State.conclude old s).time = s.time := by
  rw [State.conclude_only]

/-- The frame of a slot is not the concern of the end of an event. -/
@[simp] theorem State.conclude_frame (old s : State) (id : Nat) :
    (State.conclude old s).capture.frame? id = s.capture.frame? id := by
  unfold Capture.frame?; rw [State.conclude_slots]

/-- Capture memory gives an event no reason to change pool pressure (R43). -/
def Capture.CalmSince (old c : Capture) : Prop :=
  c.pressure = old.pressure ∧ Capture.pressureSince old c = old.pressure

theorem Capture.calmSince_of_free {old c : Capture} (hp : c.pressure = old.pressure) (hf : c.free = old.free) :
    Capture.CalmSince old c :=
  ⟨hp, (if_pos (congrArg List.length hf)).trans hp⟩

/-- An event that moves no line and gives pool pressure no reason to change announces EVT_OUT alone. -/
theorem State.conclude_quiet (old s : State) (hl : ∀ j : Fin 8, s.lines[j].state = old.lines[j].state)
    (hc : Capture.CalmSince old.capture s.capture) :
    State.conclude old s = { s with inc := s.inc.evaluated } := by
  obtain ⟨hp, hs⟩ := hc
  unfold State.conclude
  rw [State.evalPressure_eq, hs, ← hp, State.setPressure_same]
  exact State.announce_quiet old s hl hp

/-- The same of an event that changes one line and capture memory. -/
theorem State.conclude_lineAt (s : State) (i : Fin 8) (c : Capture) (m : Line) (hm : m.state = s.lines[i].state)
    (hc : Capture.CalmSince s.capture c) :
    State.conclude s (s.lineAt i c m)
      = { s with inc := s.inc.evaluated, capture := c, lines := s.lines.set i m } :=
  State.conclude_quiet s _ (s.lineAt_states i c hm) hc

end Sys2Proof.Machine
end

section
/-! PROOFS. Requests in hand: what an execution answers, and the notices it queues (R180 to R184, R196). -/

namespace Sys2Proof.Machine

/-! ### The state a body acts on -/

/-- The state with another link and another free-value counter: all a body is given that the event does not say. -/
def State.relinked (s : State) (l : Link) (k : Nat) : State := { s with link := l, freeKey := k }

@[simp] theorem State.relinked_capture (s : State) (l : Link) (k : Nat) : (s.relinked l k).capture = s.capture := rfl

/-- An execution depends on its body only where it runs it. -/
theorem State.answer_congr (s : State) (q : Req) (halt : Bool) (f g : State → State × Answer)
    (h : ∀ l k, f (s.relinked l k) = g (s.relinked l k)) : s.answer q halt f = s.answer q halt g := by
  unfold State.answer
  simp only [State.relinked] at h
  simp only [h]

/-! ### Executions that change nothing -/

@[simp] theorem replyTo_bare (q : Req) (r : Result) : (replyTo q (.bare r)).data = [] :=
  ite_self _

@[simp] theorem replyTo_ok (q : Req) (data : List Byte) : (replyTo q (.ok data)).data = data := rfl

/-- An execution whose body changes nothing changes only the link, by its reply. -/
theorem State.answer_unchanged (s : State) (i : Instr) (body : State → State × Answer) (a : Answer)
    (hb : ∀ l k, body (s.relinked l k) = (s.relinked l k, a)) :
    s.OnlyLink (s.answer (reqOf i) false body)
      ∧ s.Answered (s.answer (reqOf i) false body) i a.result (replyTo (reqOf i) a).data := by
  rw [s.answer_congr (reqOf i) false body (fun u => (u, a)) hb]
  obtain ⟨u, ⟨hu, -⟩, he, ha⟩ := s.answer_spec i (fun u => (u, a)) fun _ => rfl
  refine ⟨?_, ha⟩
  unfold State.OnlyLink
  rw [he, hu]

theorem State.serve_unchanged (s : State) (i : Instr) (body : State → State × Answer) (a : Answer)
    (h : s.Executing i) (hb : ∀ l k, body (s.relinked l k) = (s.relinked l k, a)) :
    s.OnlyLink (s.serve i body) ∧ s.Answered (s.serve i body) i a.result (replyTo (reqOf i) a).data := by
  rw [s.serve_in_hand i body h]
  exact s.answer_unchanged i body a hb

/-- A request row refused with a bare result. -/
theorem State.serve_refuses (s : State) (i : Instr) (body : State → State × Answer) (r : Result)
    (he : exec i s = .next (s.serve i body)) (h : s.Executing i)
    (hb : ∀ l k, body (s.relinked l k) = (s.relinked l k, .bare r)) :
    Completes i s fun t => s.OnlyLink t ∧ s.Answered t i r [] := by
  have answered := s.serve_unchanged i body (.bare r) h hb
  rw [replyTo_bare] at answered
  exact ⟨_, he, answered⟩

/-! ### Executions that may queue notices -/

/-- A placed reply is being sent or in the slot (R180, R184). -/
theorem Link.place_carries (a : Link) (tod : Stamp) (r : Reply) (halt : Bool) :
    (a.place tod r halt).tx = some (.reply r) ∨ (a.place tod r halt).slot = some r := by
  by_cases h : a.tx = none
  · exact .inl (a.place_idle tod r halt h)
  · exact .inr (by rw [a.place_busy tod r halt h])

theorem Link.place_busy_notices (a : Link) (tod : Stamp) (r : Reply) (halt : Bool) (h : a.tx ≠ none) :
    (a.place tod r halt).notices = a.notices := by
  rw [a.place_busy tod r halt h]

/-- All that a request row in hand can do when its body answers OK: the body acts, and its reply is carried; while the
transmitter sends, the body finds the link as it stands, and the notices are those that the body leaves. -/
theorem State.serve_ok (s : State) (i : Instr) (body : State → State × Answer) (r : Link → Nat → State)
    (data : Link → Nat → List Byte) (he : exec i s = .next (s.serve i body)) (h : s.Executing i)
    (hb : ∀ l k, body (s.relinked l k) = (r l k, .ok (data l k))) :
    ∃ t l k, exec i s = .next t ∧ t = { r l k with link := t.link } ∧ t.Carries i .ok (data l k)
      ∧ (s.link.tx ≠ none → l = s.link ∧ ((r l k).link.tx ≠ none → t.link.notices = (r l k).link.notices)) := by
  rw [s.serve_in_hand i body h,
    s.answer_congr (reqOf i) false body (fun u => (r u.link u.freeKey, .ok (data u.link u.freeKey))) hb] at he
  unfold State.answer at he
  split at he
  next idle =>
    refine ⟨_, s.link.reserve, s.freeKey + 1, he, rfl, ?_, fun busy => absurd idle.1 busy⟩
    exact .inl (Link.sendReserved_tx _ _ _)
  next =>
    refine ⟨_, s.link, s.freeKey + 1, he, rfl, Link.place_carries _ _ _ _, fun _ => ⟨rfl, fun busy => ?_⟩⟩
    exact Link.place_busy_notices _ _ _ _ busy

/-! ### Notices while the transmitter sends (R182, R196) -/

theorem Link.passes_of_keeps {a b : Link} (h : Link.keeps a b) (n : Notice) : b.passes n = a.passes n := by
  obtain ⟨-, -, -, -, hk, hl⟩ := h
  unfold Link.passes
  rw [hk, hl]

/-- A transmitter that sends begins nothing. -/
theorem Link.begin_busy (a : Link) (tod : Stamp) (h : a.tx ≠ none) : a.begin tod = a := by
  obtain ⟨f, hf⟩ := Option.ne_none_iff_exists'.mp h
  simp [Link.begin, hf]

theorem Link.notify_joins (a : Link) (tod : Stamp) (n : Notice) (h : a.tx ≠ none) (hp : a.passes n = true)
    (hr : a.notices.length < 16) : a.notify tod n = a.join tod n := by
  unfold Link.notify
  rw [if_pos hp, if_pos (show a.notices.length < Config.noticeCapacity from hr)]
  exact (a.join tod n).begin_busy tod h

theorem Link.notify_masked (a : Link) (tod : Stamp) (n : Notice) (hp : a.passes n = false) : a.notify tod n = a := by
  simp [Link.notify, hp]

theorem Link.notify_busy (a : Link) (tod : Stamp) (n : Notice) (h : a.tx ≠ none) : (a.notify tod n).tx = a.tx := by
  unfold Link.notify
  split
  · split
    · rw [(a.join tod n).begin_busy tod h]; rfl
    · rfl
  · rfl

theorem State.notifyAll_busy (ns : List Notice) (s : State) (h : s.link.tx ≠ none) :
    (s.notifyAll ns).link.tx = s.link.tx := by
  induction ns generalizing s with
  | nil => rfl
  | cons n rest ih =>
    have first : (s.notify n).link.tx = s.link.tx := s.link.notify_busy s.time.tod n h
    exact (ih (s.notify n) (first ▸ h)).trans first

/-- With room for them, the notices that the masks let pass join the queue in order (R182, R196). -/
theorem State.notifyAll_joins (ns : List Notice) (s : State) (h : s.link.tx ≠ none)
    (hr : s.link.notices.length + (ns.filter s.link.passes).length ≤ 16) :
    (s.notifyAll ns).link.notices.map (fun q => q.notice)
      = s.link.notices.map (fun q => q.notice) ++ ns.filter s.link.passes := by
  induction ns generalizing s with
  | nil => simp [State.notifyAll]
  | cons n rest ih =>
    have busy : (s.notify n).link.tx ≠ none := by
      rw [show (s.notify n).link.tx = s.link.tx from s.link.notify_busy s.time.tod n h]; exact h
    have masks : (s.notify n).link.passes = s.link.passes :=
      funext (Link.passes_of_keeps (s.link.notify_keeps s.time.tod n))
    have rests : s.notifyAll (n :: rest) = (s.notify n).notifyAll rest := rfl
    have ih := ih (s.notify n) busy
    rw [masks] at ih
    rw [rests]
    cases hp : s.link.passes n with
    | false =>
      have same : (s.notify n).link = s.link := s.link.notify_masked s.time.tod n hp
      rw [same] at ih
      simp only [List.filter_cons, hp] at hr ⊢
      exact ih hr
    | true =>
      simp only [List.filter_cons, hp, if_true, List.length_cons] at hr ⊢
      have joined : (s.notify n).link = s.link.join s.time.tod n :=
        s.link.notify_joins s.time.tod n h hp (by omega)
      rw [joined] at ih
      simp only [Link.join, List.length_append, List.length_singleton, List.map_append, List.map_cons, List.map_nil,
        List.append_assoc, List.singleton_append] at ih
      exact ih (by omega)

/-! ### The LINE_STATE notices of an event (R200) -/

/-- A filter that lets one element of a list without repetition pass. -/
theorem filterMap_eq_singleton {α β : Type} (f : α → Option β) (a : α) (b : β) (l : List α) (hn : l.Nodup)
    (ha : a ∈ l) (hf : f a = some b) (ho : ∀ x, x ≠ a → f x = none) : l.filterMap f = [b] := by
  obtain ⟨p, q, rfl⟩ := List.append_of_mem ha
  have hp : p.filterMap f = [] := by
    refine List.filterMap_eq_nil_iff.mpr fun x hx => ho x ?_
    rintro rfl
    exact (List.nodup_append.mp hn).2.2 x hx x List.mem_cons_self rfl
  have hq : q.filterMap f = [] := by
    refine List.filterMap_eq_nil_iff.mpr fun x hx => ho x ?_
    rintro rfl
    exact (List.nodup_cons.mp (List.nodup_append.mp hn).2.1).1 hx
  rw [List.filterMap_append, List.filterMap_cons_some hf, hp, hq]
  rfl

theorem lineNotices_lineAt (s : State) (i : Fin 8) (c : Capture) (m : Line) (h : m.state ≠ s.lines[i].state) :
    lineNotices s (s.lineAt i c m) = [.lineState i m.state s.lines[i].state m.attention] := by
  refine filterMap_eq_singleton _ i _ _ (List.nodup_finRange 8) (List.mem_finRange i) ?_ fun j hj => ?_
  · rw [State.lineAt_same, if_neg h.symm]
  · rw [State.lineAt_other s i j hj, if_pos rfl]

/-- The end of an event that has changed one line, capture memory and the link, and gives pool pressure no reason to
change: EVT_OUT, and LINE_STATE when the line's state has changed. -/
theorem State.conclude_lineAt_link (s : State) (i : Fin 8) (c : Capture) (m : Line) (k : Link)
    (calm : Capture.CalmSince s.capture c) :
    State.conclude s { s.lineAt i c m with link := k }
      = { s with
          capture := c, lines := s.lines.set i m, inc := s.inc.evaluated
          link := if m.state = s.lines[i].state then k
            else k.notify s.time.tod (.lineState i m.state s.lines[i].state m.attention) } := by
  obtain ⟨same, stays⟩ := calm
  have evaluated : State.evalPressure s { s.lineAt i c m with link := k } = { s.lineAt i c m with link := k } := by
    rw [State.evalPressure_eq]
    refine (congrArg _ (stays.trans same.symm)).trans (State.setPressure_same _)
  have pressure : Machine.pressureNotices s { s.lineAt i c m with link := k } = [] := if_pos same.symm
  have lines : lineNotices s { s.lineAt i c m with link := k } = lineNotices s (s.lineAt i c m) := rfl
  unfold State.conclude State.announce
  rw [evaluated, pressure, lines]
  split
  next unmoved =>
    rw [lineNotices_of_same_states _ _ (s.lineAt_states i c unmoved)]
    rfl
  next moved =>
    rw [lineNotices_lineAt s i c m moved]
    rfl

/-- An event that moves one line and leaves capture memory alone queues the line's LINE_STATE. -/
theorem State.conclude_moved (s : State) (i : Fin 8) (m : Line) (h : m.state ≠ s.lines[i].state) :
    State.conclude s (s.lineAt i s.capture m)
      = { s with
          lines := s.lines.set i m, inc := s.inc.evaluated
          link := s.link.notify s.time.tod (.lineState i m.state s.lines[i].state m.attention) } := by
  have whole := s.conclude_lineAt_link i s.capture m s.link (Capture.calmSince_of_free rfl rfl)
  rwa [if_neg h] at whole

end Sys2Proof.Machine
end

section
/-! PROOFS. The invariants at reset, and what either reset sets and keeps (R24, R47, R70, R96, R117, R118, R138, R140,
R185 to R187, R201). -/

namespace Sys2Proof.Machine

/-! ### The state right after reset -/

/-- Page memory is all that tells two resets of capture memory apart (R47). -/
theorem Capture.reset_eq (a b : Memory) : Capture.reset a = { Capture.reset b with mem := a } := by
  simp only [Capture.reset]

theorem Capture.reset_free (m : Memory) : (Capture.reset m).free = List.range 1024 := by
  simp only [Capture.reset, Config.pageCount]

theorem State.reset_capture : State.reset.capture = .reset ⟨.undef 0, []⟩ := rfl
theorem State.reset_free : State.reset.capture.free = List.range 1024 := Capture.reset_free _
theorem State.reset_slots : State.reset.capture.slots = [] := rfl
theorem State.reset_store :
    State.reset.store = .scanning (Vector.replicate 64 .factory) ⟨false, false, false⟩ .hardReset := rfl

theorem State.reset_line (i : Fin 8) : State.reset.lines[i] = Line.reset := by simp [State.reset]

theorem State.reset_sector (x : Fin 64) : State.reset.store.sectors[x] = Sector.factory := by
  simp [State.reset, Store.scanning]

theorem State.reset_incident (k : Fin 4) : State.reset.inc.table[k] = none := by
  simp [State.reset, Incidents.reset]

theorem State.reset_hist (i : Fin 8) : State.reset.capture.hist[i] = [] := by
  simp [State.reset, Capture.reset]

theorem State.reset_handed (i : Fin 8) : State.reset.capture.handed[i] = [] := by
  simp [State.reset, Capture.reset]

theorem State.reset_namedSlots : State.reset.namedSlots = fun _ => [] := by
  funext i
  unfold State.namedSlots
  rw [State.reset_hist, State.reset_handed, State.reset_line]
  rfl

theorem State.reset_memoriesCanonical : State.reset.memoriesCanonical = true := by
  unfold State.memoriesCanonical
  rw [Bool.and_eq_true, List.all_eq_true]
  refine ⟨Memory.undef_wf 0, fun x _ => ?_⟩
  rw [State.reset_sector]
  exact Memory.blank_wf

theorem State.reset_framesPlaced : State.reset.framesPlaced := by
  refine ⟨?_, ?_, fun i => ?_⟩
  · rw [State.reset_slots]; rfl
  · rw [State.reset_namedSlots]; decide
  · rw [State.reset_hist, State.reset_handed, State.reset_line]
    exact ⟨fun _ h => (nomatch h), fun _ h => (nomatch h), fun _ h => (nomatch h)⟩

theorem State.reset_pagesConserved : State.reset.pagesConserved := by
  unfold State.pagesConserved
  rw [State.reset_free, State.reset_slots, List.flatMap_nil, List.append_nil]
  exact ⟨List.Perm.refl _, rfl⟩

theorem State.reset_pinsAgree : State.reset.pinsAgree := by
  refine ⟨fun k n h => ?_, fun id f h => ?_⟩
  · rw [State.reset_incident] at h
    exact (Option.some_ne_none n h.symm).elim
  · unfold Capture.frame? at h
    rw [State.reset_slots] at h
    exact (Option.some_ne_none f h.symm).elim

theorem State.reset_oneOpenSector : State.reset.oneOpenSector := by
  refine ⟨fun x y h => ?_, fun h => (h rfl).elim⟩
  rw [State.reset_sector] at h
  exact absurd h (by decide)

theorem State.reset_arrayGuarded : State.reset.arrayGuarded := by
  refine ⟨fun x _ => ?_, fun i h => ?_, trivial, trivial, fun _ => ⟨rfl, rfl, rfl, rfl⟩⟩
  · rw [State.reset_sector]; rfl
  · exact (List.not_mem_nil h).elim

theorem Link.reset_consistent (straps : BitVec 2) : (Link.reset straps).consistent :=
  ⟨fun h => (h rfl).elim, fun _ => rfl, fun h => (nomatch h), fun h => (h rfl).elim⟩

theorem State.reset_queuesBounded : State.reset.queuesBounded :=
  ⟨Nat.zero_le 4, Nat.zero_le 16, Nat.zero_le 8⟩

theorem State.reset_masksKept : State.reset.masksKept := by
  unfold State.masksKept State.reset Link.reset
  decide

/-- Settles O11: each invariant by what reset leaves empty. -/
theorem invariantsHoldAtReset : Obligations.InvariantsHoldAtReset :=
  ⟨State.reset_memoriesCanonical, State.reset_queuesBounded, State.reset_masksKept, Link.reset_consistent 0,
    State.reset_framesPlaced, State.reset_pagesConserved, State.reset_pinsAgree, State.reset_oneOpenSector,
    State.reset_arrayGuarded⟩

/-! ### An array operation cut short (R98, R99) -/

/-- A reset's cut concerns the sectors and the free-value counter alone. -/
theorem State.cutArray_only (s : State) :
    s.cutArray = { s with
      store := { s.store with sectors := s.cutArray.store.sectors }, freeKey := s.cutArray.freeKey } := by
  unfold State.cutArray
  split <;> rfl

/-- It leaves every sector that no operation is in progress in as it was. -/
theorem State.cutArray_other (s : State) (x : Fin 64) (h : s.store.op.all (fun o => o.sector != x) = true) :
    s.cutArray.store.sectors[x] = s.store.sectors[x] := by
  unfold State.cutArray
  split
  next => rfl
  next e he =>
    rw [he] at h
    exact s.modSector_other e.sector x (Ne.symm (bne_iff_ne.mp h)) _
  next p hp =>
    rw [hp] at h
    exact s.modSector_other p.sector x (Ne.symm (bne_iff_ne.mp h)) _

/-- A change of one sector that keeps its protection keeps every sector's. -/
theorem State.modSector_protection (s : State) (x y : Fin 64) (f : Sector → Sector)
    (h : ∀ v, (f v).protection = v.protection) :
    (s.modSector x f).store.sectors[y].protection = s.store.sectors[y].protection := by
  by_cases e : y = x
  · subst e
    rw [State.modSector_same, h]
  · rw [State.modSector_other s x y e]

theorem State.cutArray_protection (s : State) (x : Fin 64) :
    s.cutArray.store.sectors[x].protection = s.store.sectors[x].protection := by
  unfold State.cutArray
  split
  next => rfl
  next e _ => exact s.modSector_protection e.sector x _ fun _ => rfl
  next p _ => exact s.modSector_protection p.sector x _ fun _ => rfl

/-! ### HARD_RESET -/

theorem State.hardReset_sector (s : State) (straps : BitVec 2) (x : Fin 64) :
    (s.hardReset straps).store.sectors[x]
      = .emptied s.cutArray.store.sectors[x].mem s.cutArray.store.sectors[x].eraseComplete .unlocked := by
  simp only [State.hardReset, Store.scanning, vmap_get]

theorem State.hardReset_capture (s : State) (straps : BitVec 2) :
    (s.hardReset straps).capture = .reset ⟨.undef s.cutArray.freeKey, []⟩ := rfl

theorem State.hardReset_pending (s : State) (straps : BitVec 2) : (s.hardReset straps).pending = s.pending := by
  unfold State.hardReset
  rw [State.cutArray_only]

/-- Settles O12: the blocks by the definition of a hard reset, the sectors by what the cut of an operation leaves. -/
theorem hardResetSetsEveryBlock : Obligations.HardResetSetsEveryBlock := by
  intro straps s
  refine ⟨s.hardReset straps, rfl, rfl, ?_, rfl, rfl, rfl, rfl, rfl, s.hardReset_pending straps, ?_, fun x => ?_⟩
  · rw [State.hardReset_capture, State.reset_capture]
    exact Capture.reset_eq _ _
  · rw [State.reset_store]
    rfl
  · rw [State.hardReset_sector]
    refine ⟨rfl, fun spared => ?_⟩
    rw [s.cutArray_other x spared]
    exact ⟨rfl, rfl⟩

/-! ### The restart -/

theorem State.restart_sector (s : State) (x : Fin 64) :
    s.restart.store.sectors[x]
      = .emptied s.cutArray.store.sectors[x].mem s.cutArray.store.sectors[x].eraseComplete
          s.cutArray.store.sectors[x].protection := by
  simp only [State.restart, Store.scanning, vmap_get]

/-- Both rows that can end the RESTART reply are the restart (R185, log 28). -/
theorem exec_restart_row (c : Instr) (s : State) (hc : c = .restartTakesEffect ∨ c = .txFrameEnd)
    (h : s.link.restartSending = true) : exec c s = .next s.restart := by
  obtain rfl | rfl := hc
  · exact if_pos h
  · exact if_pos h

/-- Page memory, clocks, faults and straps come through a restart (R118, R187, R199, R201). -/
theorem State.restart_kept (s : State) :
    s.restart.capture = .reset s.capture.mem ∧ s.restart.time = { s.time with cause := .restart }
      ∧ s.restart.link = .reset s.link.straps ∧ s.restart.pending = s.pending
      ∧ s.restart.store = .scanning s.restart.store.sectors s.store.faults .restart := by
  unfold State.restart
  rw [State.cutArray_only]
  exact ⟨rfl, rfl, rfl, rfl, rfl⟩

/-- Settles O13: as for a hard reset, with what the restart keeps read through the cut of an operation. -/
theorem restartKeepsWhatTheHostChose : Obligations.RestartKeepsWhatTheHostChose := by
  intro c s hc h
  obtain ⟨capture, time, link, pending, store⟩ := s.restart_kept
  refine ⟨s.restart, exec_restart_row c s hc h, rfl, ?_, rfl, rfl, rfl, time, link, pending, store, fun x => ?_⟩
  · rw [capture, State.reset_capture]
    exact Capture.reset_eq _ _
  · rw [State.restart_sector, State.cutArray_protection]
    refine ⟨rfl, fun spared => ?_⟩
    rw [s.cutArray_other x spared]
    exact ⟨rfl, rfl⟩

/-! ### The line receivers after either reset -/

/-- Lines, capture memory and link are as State.reset has them after either reset, but for page memory and straps. -/
theorem resets_blocks (straps : BitVec 2) (s t : State)
    (h : exec (.hardReset straps) s = .next t
      ∨ (s.link.restartSending = true ∧ exec .restartTakesEffect s = .next t)) :
    t.lines = State.reset.lines ∧ (∃ mem, t.capture = .reset mem) ∧ ∃ straps, t.link = .reset straps := by
  obtain h | ⟨sending, h⟩ := h
  · obtain rfl : s.hardReset straps = t := Host.Outcome.next.inj h
    exact ⟨rfl, ⟨_, rfl⟩, _, rfl⟩
  · rw [exec_restart_row _ s (.inl rfl) sending] at h
    obtain rfl : s.restart = t := Host.Outcome.next.inj h
    obtain ⟨capture, -, link, -⟩ := s.restart_kept
    exact ⟨rfl, ⟨_, capture⟩, _, link⟩

/-- Settles O15: every line is as R24 has it, and slots, pages and link as the same resets leave them. -/
theorem resetsStopEveryLine : Obligations.ResetsStopEveryLine := by
  intro straps s t i h
  obtain ⟨lines, ⟨mem, capture⟩, straps, link⟩ := resets_blocks straps s t h
  have line : t.lines[i] = Line.reset := by simp only [lines, State.reset_line]
  have slots : t.capture.slots = [] := by rw [capture]; rfl
  have free : t.capture.free = List.range 1024 := by rw [capture, Capture.reset_free]
  rw [line, slots, free, link]
  exact ⟨rfl, rfl, rfl, rfl, rfl, rfl, rfl, rfl, rfl, rfl, rfl, rfl, rfl⟩

end Sys2Proof.Machine
end

section
/-! PROOFS. Refused requests (R16, R17, R21, R79, R110, R112, R113, R137, R157, R158, R163, R164, R168, R179) and
GET_LINE_COUNTS (R23). -/

namespace Sys2Proof.Machine

/-! ### Operands in and out of range (R189) -/

theorem lineOf_eq_none {b : Byte} (h : 8 ≤ b.toNat) : lineOf b = none := dif_neg (by omega)
theorem entryOf_eq_none {b : Byte} (h : 16 ≤ b.toNat) : entryOf b = none := dif_neg (by omega)
theorem sectorOf_eq_none {b : Byte} (h : 64 ≤ b.toNat) : sectorOf b = none := dif_neg (by omega)
theorem sectorOf_eq_some {b : Byte} (h : b.toNat < 64) : sectorOf b = some ⟨b.toNat, h⟩ := dif_pos h

theorem boolOf_eq_none {b : Byte} (h : 2 ≤ b.toNat) : boolOf b = none := by
  unfold boolOf
  split
  next => omega
  next => omega
  next => rfl

theorem boolOf_eq_some {b : Byte} (h : b.toNat ≤ 1) : boolOf b = some (decide (b = 1)) := by
  obtain hb | hb : b.toNat = 0 ∨ b.toNat = 1 := by omega
  · obtain rfl : b = 0 := BitVec.eq_of_toNat_eq hb
    rfl
  · obtain rfl : b = 1 := BitVec.eq_of_toNat_eq hb
    rfl

theorem storePolicyOf_eq_none {b : Byte} (h : 2 ≤ b.toNat) : storePolicyOf b = none := by
  unfold storePolicyOf
  split
  next => omega
  next => omega
  next => rfl

theorem storePolicyOf_eq_some {b : Byte} (h : b.toNat ≤ 1) : ∃ p, storePolicyOf b = some p := by
  obtain hb | hb : b.toNat = 0 ∨ b.toNat = 1 := by omega
  · exact ⟨.stop, by simp [storePolicyOf, hb]⟩
  · exact ⟨.overwriteOldest, by simp [storePolicyOf, hb]⟩

theorem protectionOf_eq_none {b : Byte} (h : 3 ≤ b.toNat) : protectionOf b = none := by
  unfold protectionOf
  split
  next => omega
  next => omega
  next => omega
  next => rfl

theorem protectionOf_eq_some {b : Byte} (h : b.toNat ≤ 2) : ∃ p, protectionOf b = some p := by
  obtain hb | hb | hb : b.toNat = 0 ∨ b.toNat = 1 ∨ b.toNat = 2 := by omega
  · exact ⟨.unlocked, by simp [protectionOf, hb]⟩
  · exact ⟨.locked, by simp [protectionOf, hb]⟩
  · exact ⟨.lockedDown, by simp [protectionOf, hb]⟩

theorem countInRange_eq_false {n : Byte} {top : Nat} (h : n.toNat = 0 ∨ top < n.toNat) :
    countInRange n top = false := decide_eq_false (by omega)

theorem countInRange_eq_true {n : Byte} {top : Nat} (h : 1 ≤ n.toNat) (g : n.toNat ≤ top) :
    countInRange n top = true := decide_eq_true ⟨h, g⟩

/-! ### What each body answers to an operand out of range -/

theorem startLineBody_noLine {line : Byte} (h : lineOf line = none) (pin : Bool) (s : State) :
    startLineBody line pin s = (s, .bare .badArgument) := by simp [startLineBody, h]

theorem stopLineBody_noLine {line : Byte} (h : lineOf line = none) (s : State) :
    stopLineBody line s = (s, .bare .badArgument) := by simp [stopLineBody, h]

theorem configureLineBody_noLine {line : Byte} (h : lineOf line = none) (arg : LineArg) (s : State) :
    configureLineBody line arg s = (s, .bare .badArgument) := by simp [configureLineBody, h]

theorem takeFramesBody_outOfRange {line count : Byte} (h : 8 ≤ line.toNat ∨ count = 0 ∨ 32 < count.toNat) (s : State) :
    takeFramesBody line count s = (s, .bare .badArgument) := by
  obtain h | h : lineOf line = none ∨ countInRange count 32 = false := by
    obtain h | rfl | h := h
    · exact .inl (lineOf_eq_none h)
    · exact .inr rfl
    · exact .inr (countInRange_eq_false (.inr h))
  · simp [takeFramesBody, h]
  · cases e : lineOf line <;> simp [takeFramesBody, h, e]

theorem releaseFramesBody_noLine {line : Byte} (h : lineOf line = none) (seq : Half) (s : State) :
    releaseFramesBody line seq s = (s, .bare .badArgument) := by simp [releaseFramesBody, h]

theorem forceTriggerBody_noEntry {entry : Byte} (h : entryOf entry = none) (s : State) :
    forceTriggerBody entry s = (s, .bare .badArgument) := by simp [forceTriggerBody, h]

theorem setStorePolicyBody_noPolicy {policy : Byte} (h : storePolicyOf policy = none) (s : State) :
    setStorePolicyBody policy s = (s, .bare .badArgument) := by simp [setStorePolicyBody, h]

theorem setProtectionBody_outOfRange {x level : Byte} (h : sectorOf x = none ∨ protectionOf level = none) (s : State) :
    setProtectionBody x level s = (s, .bare .badArgument) := by
  obtain h | h := h
  · simp [setProtectionBody, h]
  · cases e : sectorOf x <;> simp [setProtectionBody, h, e]

theorem eraseSectorBody_noSector {x : Byte} (h : sectorOf x = none) (s : State) :
    eraseSectorBody x s = (s, .bare .badArgument) := by simp [eraseSectorBody, h]

/-! ### What each body answers while the store scans -/

theorem setStorePolicyBody_scanning {policy : Byte} (h : policy.toNat ≤ 1) (s : State)
    (hs : s.store.state = .scanning) : setStorePolicyBody policy s = (s, .bare .notReady) := by
  obtain ⟨p, hp⟩ := storePolicyOf_eq_some h
  simp [setStorePolicyBody, hp, hs]

theorem setProtectionBody_scanning {x level : Byte} (h : x.toNat < 64) (g : level.toNat ≤ 2) (s : State)
    (hs : s.store.state = .scanning) : setProtectionBody x level s = (s, .bare .notReady) := by
  obtain ⟨p, hp⟩ := protectionOf_eq_some g
  simp [setProtectionBody, sectorOf_eq_some h, hp, State.protect, hs]

theorem eraseSectorBody_scanning {x : Byte} (h : x.toNat < 64) (s : State) (hs : s.store.state = .scanning) :
    eraseSectorBody x s = (s, .bare .notReady) := by
  simp [eraseSectorBody, sectorOf_eq_some h, State.eraseSector, hs]

theorem discardRecordBody_scanning (serial : Word) (s : State) (hs : s.store.state = .scanning) :
    discardRecordBody serial s = (s, .bare .notReady) := by simp [discardRecordBody, hs]

theorem listRecordsBody_scanning (first : Word) {filter max : Byte} (h : filter.toNat < 64 ∨ filter = 0xFF#8)
    (g : 1 ≤ max.toNat) (g' : max.toNat ≤ 40) (s : State) (hs : s.store.state = .scanning) :
    listRecordsBody first filter max s = (s, .bare .notReady) := by
  have inRange : ¬ ((filter ≠ 0xFF#8 ∧ 64 ≤ filter.toNat) ∨ countInRange max 40 = false) := by
    rw [countInRange_eq_true g g']
    rintro (⟨h1, h2⟩ | h1)
    · exact h.elim (fun h => absurd h2 (Nat.not_le.mpr h)) h1
    · exact Bool.true_eq_false.mp h1
  unfold listRecordsBody
  rw [if_neg inRange, if_pos hs]

/-! ### Refused record reads (R164, R168) -/

/-- A record request whose checks refuse it is answered so, and changes nothing. -/
theorem State.serveRead_refuses (s : State) (i : Instr) (check : State → Except Result ReadJob) (r : Result)
    (he : exec i s = .next (s.serveRead i check)) (h : s.Executing i) (hc : check s = .error r) :
    Completes i s fun t => s.OnlyLink t ∧ s.Answered t i r [] := by
  have run : s.serveRead i check = s.answer (reqOf i) false fun u => (u, .bare r) := by
    unfold State.serveRead State.request
    rw [if_pos (show s.link.handler = _ ∧ _ from h)]
    simp only [hc]
  have answered := s.answer_unchanged i (fun u => (u, .bare r)) (.bare r) fun _ _ => rfl
  rw [replyTo_bare] at answered
  rw [run] at he
  exact ⟨_, he, answered⟩

/-! ### The families of refusals -/

/-- UNKNOWN_REQUEST (R179). -/
theorem unknownRequest_refused (tag : Byte) (p : List Byte) (s : State) (hp : payloadKnown p = false)
    (h : s.Executing (.unknownRequest tag p)) :
    Completes (.unknownRequest tag p) s fun t =>
      s.OnlyLink t ∧ s.Answered t (.unknownRequest tag p) .badRequest [] := by
  refine s.serve_refuses _ (fun s => (s, .bare .badRequest)) _ ?_ h fun _ _ => rfl
  show execUnknownRequest tag p s = _
  simp [execUnknownRequest, hp]

/-- BAD_ARGUMENT: by row, the body that refuses the operand. -/
theorem outOfRange_refused (i : Instr) (s : State) (h : s.Executing i)
    (row : (∃ tag line pin, i = .startLine tag line pin ∧ 8 ≤ line.toNat)
      ∨ (∃ tag line, i = .stopLine tag line ∧ 8 ≤ line.toNat)
      ∨ (∃ tag line arg, i = .configureLine tag line arg ∧ 8 ≤ line.toNat)
      ∨ (∃ tag line count, i = .takeFrames tag line count ∧ (8 ≤ line.toNat ∨ count = 0 ∨ 32 < count.toNat))
      ∨ (∃ tag line seq, i = .releaseFrames tag line seq ∧ 8 ≤ line.toNat)
      ∨ (∃ tag entry, i = .forceTrigger tag entry ∧ 16 ≤ entry.toNat)
      ∨ (∃ tag policy, i = .setStorePolicy tag policy ∧ 2 ≤ policy.toNat)
      ∨ (∃ tag x level, i = .setProtection tag x level ∧ (64 ≤ x.toNat ∨ 3 ≤ level.toNat))
      ∨ (∃ tag x, i = .eraseSector tag x ∧ 64 ≤ x.toNat)) :
    Completes i s fun t => s.OnlyLink t ∧ s.Answered t i .badArgument [] := by
  obtain ⟨tag, line, pin, rfl, g⟩ | ⟨tag, line, rfl, g⟩ | ⟨tag, line, arg, rfl, g⟩ | ⟨tag, line, count, rfl, g⟩
    | ⟨tag, line, seq, rfl, g⟩ | ⟨tag, entry, rfl, g⟩ | ⟨tag, policy, rfl, g⟩ | ⟨tag, x, level, rfl, g⟩
    | ⟨tag, x, rfl, g⟩ := row
  · exact s.serve_refuses _ _ _ rfl h fun _ _ => startLineBody_noLine (lineOf_eq_none g) pin _
  · exact s.serve_refuses _ _ _ rfl h fun _ _ => stopLineBody_noLine (lineOf_eq_none g) _
  · exact s.serve_refuses _ _ _ rfl h fun _ _ => configureLineBody_noLine (lineOf_eq_none g) arg _
  · exact s.serve_refuses _ _ _ rfl h fun _ _ => takeFramesBody_outOfRange g _
  · exact s.serve_refuses _ _ _ rfl h fun _ _ => releaseFramesBody_noLine (lineOf_eq_none g) seq _
  · exact s.serve_refuses _ _ _ rfl h fun _ _ => forceTriggerBody_noEntry (entryOf_eq_none g) _
  · exact s.serve_refuses _ _ _ rfl h fun _ _ => setStorePolicyBody_noPolicy (storePolicyOf_eq_none g) _
  · exact s.serve_refuses _ _ _ rfl h fun _ _ =>
      setProtectionBody_outOfRange (g.imp sectorOf_eq_none protectionOf_eq_none) _
  · exact s.serve_refuses _ _ _ rfl h fun _ _ => eraseSectorBody_noSector (sectorOf_eq_none g) _

/-- NOT_FOUND: the serial is not indexed (R164, R168). -/
theorem notIndexed_refused (i : Instr) (serial : Word) (s : State) (h : s.Executing i) (ready : s.store.state = .ready)
    (absent : s.records.entryOf serial = none)
    (row : (∃ tag first, i = .readRecord tag serial first) ∨ (∃ tag, i = .verifyRecord tag serial)) :
    Completes i s fun t => s.OnlyLink t ∧ s.Answered t i .notFound [] := by
  obtain ⟨tag, first, rfl⟩ | ⟨tag, rfl⟩ := row
  · exact s.serveRead_refuses _ _ _ rfl h (by simp [readRecordCheck, ready, absent])
  · exact s.serveRead_refuses _ _ _ rfl h (by simp [verifyRecordCheck, ready, absent])

/-- WRONG_STATE: RELEASE_FRAMES on a RING line (R158). -/
theorem releaseRing_refused (tag line : Byte) (seq : Half) (i : Fin 8) (s : State) (hi : lineOf line = some i)
    (h : s.Executing (.releaseFrames tag line seq)) (ring : s.lines[i].cfg.policy = .ring) :
    Completes (.releaseFrames tag line seq) s fun t =>
      s.OnlyLink t ∧ s.Answered t (.releaseFrames tag line seq) .wrongState [] := by
  refine s.serve_refuses _ _ _ rfl h fun l k => ?_
  unfold releaseFramesBody
  rw [hi]
  exact if_pos ring

/-- NOT_READY: by row, the body that refuses while the store scans. -/
theorem scanning_refused (i : Instr) (s : State) (scanning : s.store.state = .scanning) (h : s.Executing i)
    (row : (∃ tag p, i = .setStorePolicy tag p ∧ p.toNat ≤ 1)
      ∨ (∃ tag x l, i = .setProtection tag x l ∧ x.toNat < 64 ∧ l.toNat ≤ 2)
      ∨ (∃ tag x, i = .eraseSector tag x ∧ x.toNat < 64) ∨ (∃ tag n, i = .discardRecord tag n)
      ∨ (∃ tag n k, i = .readRecord tag n k) ∨ (∃ tag n, i = .verifyRecord tag n)
      ∨ (∃ tag f x m, i = .listRecords tag f x m ∧ (x.toNat < 64 ∨ x = 0xFF#8) ∧ 1 ≤ m.toNat ∧ m.toNat ≤ 40)) :
    Completes i s fun t => s.OnlyLink t ∧ s.Answered t i .notReady [] := by
  obtain ⟨tag, p, rfl, g⟩ | ⟨tag, x, l, rfl, g, g'⟩ | ⟨tag, x, rfl, g⟩ | ⟨tag, n, rfl⟩ | ⟨tag, n, k, rfl⟩
    | ⟨tag, n, rfl⟩ | ⟨tag, f, x, m, rfl, g, lo, hi⟩ := row
  · exact s.serve_refuses _ _ _ rfl h fun _ _ => setStorePolicyBody_scanning g _ scanning
  · exact s.serve_refuses _ _ _ rfl h fun _ _ => setProtectionBody_scanning g g' _ scanning
  · exact s.serve_refuses _ _ _ rfl h fun _ _ => eraseSectorBody_scanning g _ scanning
  · exact s.serve_refuses _ _ _ rfl h fun _ _ => discardRecordBody_scanning n _ scanning
  · exact s.serveRead_refuses _ _ _ rfl h (by simp [readRecordCheck, scanning])
  · exact s.serveRead_refuses _ _ _ rfl h (by simp [verifyRecordCheck, scanning])
  · exact s.serve_refuses _ _ _ rfl h fun _ _ => listRecordsBody_scanning f g lo hi _ scanning

/-- The code of the reply to UNKNOWN_REQUEST (R179). -/
theorem replyOf_unknownRequest_code (tag : Byte) (p : List Byte) (r : Result) (data : List Byte) :
    (replyOf (.unknownRequest tag p) r data).code = p.headD 0 := rfl

/-- Settles O20: one family of refusals after the other. -/
theorem refusedRequestsChangeNothing : Obligations.RefusedRequestsChangeNothing := by
  refine ⟨fun tag p s hp h => ?_, outOfRange_refused, notIndexed_refused, releaseRing_refused, scanning_refused⟩
  obtain ⟨t, he, only, answered⟩ := unknownRequest_refused tag p s hp h
  exact ⟨t, he, only, answered, replyOf_unknownRequest_code tag p _ _⟩

/-! ### GET_LINE_COUNTS (R23) -/

/-- The reply data of GET_LINE_COUNTS, field after field. -/
theorem Line.countsBytes_eq (l : Line) :
    l.countsBytes = [l.state.code, l.reception.code, boolByte l.attention] ++ encLE 2 l.nextSeq
      ++ encLE 4 l.counters.kept ++ encLE 4 l.counters.bad ++ encLE 4 l.counters.dropped ++ encLE 4 l.counters.cut
      ++ encLE 4 l.counters.lost ++ encLE 4 l.counters.shed ++ encLE 4 l.counters.charErrors := by
  simp [Line.countsBytes]

theorem getLineCountsBody_outOfRange {line clear : Byte} (h : lineOf line = none ∨ 2 ≤ clear.toNat) (s : State) :
    getLineCountsBody line clear s = (s, .bare .badArgument) := by
  obtain h | h := h
  · simp [getLineCountsBody, h]
  · cases e : lineOf line <;> simp [getLineCountsBody, boolOf_eq_none h, e]

theorem getLineCountsBody_inRange {line clear : Byte} {i : Fin 8} (h : lineOf line = some i) (g : clear.toNat ≤ 1)
    (s : State) :
    getLineCountsBody line clear s
      = ({ s with lines := if clear = 1 then
            s.lines.set i { s.lines[i] with counters := ⟨0, 0, 0, 0, 0, 0, 0⟩, attention := false } else s.lines },
          .ok s.lines[i].countsBytes) := by
  unfold getLineCountsBody
  rw [h, boolOf_eq_some g]
  by_cases one : clear = 1
  · simp only [one, decide_true, if_true]
    rfl
  · simp only [one, decide_false, if_false]
    rfl

/-- Settles O33: the refusal, and the body of a request in range, which leaves the link to the reply. -/
theorem getLineCountsReadsThenClears : Obligations.GetLineCountsReadsThenClears := by
  intro tag line clear s h
  refine ⟨fun bad => ?_, fun i hi hc => ?_⟩
  · exact s.serve_refuses _ _ _ rfl h fun _ _ => getLineCountsBody_outOfRange bad _
  · have link : ∀ u, (getLineCountsBody line clear u).1.link = u.link := fun u => by
      rw [getLineCountsBody_inRange hi hc]
    obtain ⟨u, ⟨hu, -⟩, he, answered⟩ := s.answer_spec (.getLineCounts tag line clear) _ link
    rw [← s.serve_in_hand _ _ h] at he answered
    rw [getLineCountsBody_inRange hi hc] at he answered
    have lines : u.lines = s.lines := by rw [hu]
    refine ⟨_, rfl, ?_, ?_, ?_⟩
    · rw [he, hu]
    · rw [he, hu]
    · simp only [lines] at answered
      rw [← Line.countsBytes_eq]
      exact answered

end Sys2Proof.Machine
end

section
/-! PROOFS. START_LINE and STOP_LINE (R4, R16, R17, R20, R200). -/

namespace Sys2Proof.Machine

/-! ### Requests that move one line -/

theorem Link.passes_lineState (a : Link) (i : Fin 8) (new old : LineState) (att : Bool)
    (kind : a.kindMask.getLsbD 2 = true) (line : a.lineMask.getLsbD i.val = true) :
    a.passes (.lineState i new old att) = true := by
  simp [Link.passes, Notice.kind, inSet, kind, line]

/-- With room in the queue, the LINE_STATE of one line joins it (R182, R196). -/
theorem State.Queues.lineState_notices {s : State} (q : s.Queues 1 [2]) (i : Fin 8)
    (line : s.link.lineMask.getLsbD i.val = true) (tod : Stamp) (new old : LineState) (att : Bool) :
    (s.link.notify tod (.lineState i new old att)).notices
      = s.link.notices ++ [⟨s.link.number, tod, .lineState i new old att⟩] := by
  obtain ⟨busy, room, kinds⟩ := q
  rw [s.link.notify_joins tod _ busy (s.link.passes_lineState i new old att (kinds 2 (List.mem_singleton_self 2)) line)
    (by omega)]
  rfl

/-- A request that moves one line and replies OK: the line, its reply, and its LINE_STATE. -/
theorem State.serve_moves (s : State) (row : Instr) (body : State → State × Answer) (i : Fin 8) (m : Line)
    (data : List Byte) (he : exec row s = .next (s.serve row body)) (h : s.Executing row)
    (hm : m.state ≠ s.lines[i].state)
    (hb : ∀ l k, body (s.relinked l k)
      = (State.conclude (s.relinked l k) ((s.relinked l k).lineAt i s.capture m), .ok data)) :
    Completes row s fun t => t.Carries row .ok data
      ∧ t = { s with lines := s.lines.set i m, inc := s.inc.evaluated, link := t.link, freeKey := t.freeKey }
      ∧ (s.Queues 1 [2] → s.link.lineMask.getLsbD i.val = true →
          t.link.notices = s.link.notices ++ [⟨s.link.number, s.time.tod,
            .lineState i m.state s.lines[i].state m.attention⟩]) := by
  obtain ⟨t, l, k, he, only, carries, queue⟩ := s.serve_ok row body _ (fun _ _ => data) he h hb
  have moved := (s.relinked l k).conclude_moved i m hm
  rw [State.relinked_capture] at moved
  rw [moved] at only queue
  refine ⟨t, he, carries, ?_, fun q line => ?_⟩
  · rw [only]
    rfl
  · obtain ⟨rfl, queue⟩ := queue q.1
    have busy : (s.link.notify s.time.tod (.lineState i m.state s.lines[i].state m.attention)).tx ≠ none := by
      rw [s.link.notify_busy s.time.tod _ q.1]
      exact q.1
    exact (queue busy).trans (q.lineState_notices i line _ _ _ _)

/-! ### START_LINE -/

/-- The line that START_LINE leaves (R4, R16, R20). -/
def Line.started (l : Line) (st : LineState) (now : Stamp) (pinHigh : Bool) : Line :=
  { l with
    state := st
    attention := l.attention || st == .suspended || st == .shed
    reception := if l.cfg.mode = .marked then .hunt else .discarding
    current := none, inCharacter := false, awaitHigh := !pinHigh, escape := false, discardLeft := none
    idle := if l.cfg.mode ≠ .marked ∧ pinHigh = true then some ⟨now, 0⟩ else none }

theorem Line.startReception_enter (l : Line) (st : LineState) (now : Stamp) (pinHigh : Bool) :
    (l.enter st).startReception now pinHigh = l.started st now pinHigh := by
  unfold Line.startReception Line.started
  cases e : l.cfg.mode <;> simp [e, Line.enter, Line.quiet]

theorem Line.startState_eq (l : Line) (total : Nat) (pressure : Bool) :
    l.startState total pressure
      = if l.cfg.policy = .feed ∧ l.cfg.depth ≤ total then .suspended
        else if pressure = true ∧ l.cfg.sheddable = true then .shed else .active := by
  simp [Line.startState]

theorem Line.startState_ne_stopped (l : Line) (total : Nat) (pressure : Bool) :
    l.startState total pressure ≠ .stopped := by
  unfold Line.startState
  split_ifs <;> exact LineState.noConfusion

theorem startLineBody_started {line : Byte} {i : Fin 8} (hi : lineOf line = some i) (pinHigh : Bool) (s : State)
    (h : s.lines[i].state = .stopped) :
    let st := s.lines[i].startState (s.capture.total i) s.capture.pressure
    startLineBody line pinHigh s
      = (State.conclude s (s.lineAt i s.capture (s.lines[i].started st s.time.elapsed pinHigh)), .ok [st.code]) := by
  unfold startLineBody
  simp only [hi, h, ne_eq, not_true_eq_false, if_false, State.modLine_eq_lineAt, Line.startReception_enter]

theorem startLineBody_wrongState {line : Byte} {i : Fin 8} (hi : lineOf line = some i) (pinHigh : Bool) (s : State)
    (h : s.lines[i].state ≠ .stopped) : startLineBody line pinHigh s = (s, .bare .wrongState) := by
  unfold startLineBody
  rw [hi]
  exact if_pos h

/-! ### STOP_LINE -/

/-- The line that STOP_LINE leaves (R17): with a stored frame in reception it goes on to that frame's end. -/
theorem Line.stop_eq (l : Line) :
    l.stop = if l.storing = true then { l with state := .stopping }
      else { l with
        state := if l.awaiting = [] then .stopped else .stopping
        reception := .hunt, current := none, inCharacter := false, awaitHigh := false, idle := none
        escape := false, discardLeft := none } := by
  have calm : ∀ st : LineState, st = .stopping ∨ st = .stopped →
      (l.attention || st == .suspended || st == .shed) = l.attention := by
    rintro st (rfl | rfl)
    · exact (Bool.or_false _).trans (Bool.or_false _)
    · exact (Bool.or_false _).trans (Bool.or_false _)
  unfold Line.stop
  split_ifs <;> simp [Line.enter, Line.quiet, calm]

theorem Line.stop_state (l : Line) : l.stop.state = .stopped ∨ l.stop.state = .stopping := by
  rw [Line.stop_eq]
  split_ifs
  · exact .inr rfl
  · exact .inl rfl
  · exact .inr rfl

theorem Line.stop_attention (l : Line) : l.stop.attention = l.attention := by
  rw [Line.stop_eq]
  split_ifs <;> rfl

theorem stopLineBody_stopped {line : Byte} {i : Fin 8} (hi : lineOf line = some i) (s : State)
    (h : s.lines[i].state = .stopped ∨ s.lines[i].state = .stopping) :
    stopLineBody line s = (s, .ok [s.lines[i].state.code]) := by
  unfold stopLineBody
  rw [hi]
  exact if_pos h

theorem stopLineBody_moves {line : Byte} {i : Fin 8} (hi : lineOf line = some i) (s : State)
    (h : ¬ (s.lines[i].state = .stopped ∨ s.lines[i].state = .stopping)) :
    stopLineBody line s
      = (State.conclude s (s.lineAt i s.capture s.lines[i].stop), .ok [s.lines[i].stop.state.code]) := by
  unfold stopLineBody
  rw [hi]
  exact if_neg h

/-! ### The two requests -/

/-- A STOPPED line is started (R16). -/
theorem startLine_starts (tag line : Byte) (pinHigh : Bool) (i : Fin 8) (s : State) (hi : lineOf line = some i)
    (h : s.Executing (.startLine tag line pinHigh)) (stopped : s.lines[i].state = .stopped) :
    let st := s.lines[i].startState (s.capture.total i) s.capture.pressure
    Completes (.startLine tag line pinHigh) s fun t =>
      t.Carries (.startLine tag line pinHigh) .ok [st.code]
        ∧ t = { s with lines := t.lines, inc := s.inc.evaluated, link := t.link, freeKey := t.freeKey }
        ∧ (∀ j : Fin 8, j ≠ i → t.lines[j] = s.lines[j])
        ∧ (s.Queues 1 [2] → s.link.lineMask.getLsbD i.val = true →
            t.link.notices = s.link.notices ++ [⟨s.link.number, s.time.tod,
              .lineState i st .stopped (s.lines[i].attention || st == .suspended || st == .shed)⟩])
        ∧ t.lines[i] = s.lines[i].started st s.time.elapsed pinHigh := by
  intro st
  have leaves : (s.lines[i].started st s.time.elapsed pinHigh).state ≠ s.lines[i].state := by
    rw [stopped]
    exact Line.startState_ne_stopped _ _ _
  obtain ⟨t, he, carries, eq, notices⟩ := s.serve_moves _ _ i _ [st.code] rfl h leaves fun l k =>
    startLineBody_started hi pinHigh (s.relinked l k) stopped
  have lines : t.lines = s.lines.set i (s.lines[i].started st s.time.elapsed pinHigh) := by rw [eq]
  refine ⟨t, he, carries, ?_, fun j hj => ?_, ?_, ?_⟩
  · rw [lines]
    exact eq
  · simp only [lines]
    exact s.setLine_other i j hj _
  · rw [stopped] at notices
    exact notices
  · simp only [lines]
    exact s.setLine_same i _

/-- A line that samples, or waits to, is stopped (R17). -/
theorem stopLine_stops (tag line : Byte) (i : Fin 8) (s : State) (hi : lineOf line = some i)
    (h : s.Executing (.stopLine tag line)) (running : ¬ (s.lines[i].state = .stopped ∨ s.lines[i].state = .stopping)) :
    Completes (.stopLine tag line) s fun t =>
      t = { s with lines := t.lines, inc := s.inc.evaluated, link := t.link, freeKey := t.freeKey }
        ∧ (∀ j : Fin 8, j ≠ i → t.lines[j] = s.lines[j])
        ∧ t.Carries (.stopLine tag line) .ok [t.lines[i].state.code]
        ∧ (s.Queues 1 [2] → s.link.lineMask.getLsbD i.val = true →
            t.link.notices = s.link.notices ++ [⟨s.link.number, s.time.tod,
              .lineState i t.lines[i].state s.lines[i].state s.lines[i].attention⟩])
        ∧ t.lines[i] = s.lines[i].stop := by
  have leaves : s.lines[i].stop.state ≠ s.lines[i].state := fun e => running (e ▸ s.lines[i].stop_state)
  obtain ⟨t, he, carries, eq, notices⟩ := s.serve_moves _ _ i _ [s.lines[i].stop.state.code] rfl h leaves fun l k =>
    stopLineBody_moves hi (s.relinked l k) running
  have lines : t.lines = s.lines.set i s.lines[i].stop := by rw [eq]
  have at_i : t.lines[i] = s.lines[i].stop := by
    simp only [lines]
    exact s.setLine_same i _
  refine ⟨t, he, ?_, fun j hj => ?_, ?_, ?_, at_i⟩
  · rw [lines]
    exact eq
  · simp only [lines]
    exact s.setLine_other i j hj _
  · rw [at_i]
    exact carries
  · rw [at_i]
    rw [Line.stop_attention] at notices
    exact notices

/-- Settles O31: each request by whether the line is to be moved. -/
theorem linesStartAndStop : Obligations.LinesStartAndStop := by
  refine ⟨fun tag line pinHigh i s hi h => ⟨fun running => ?_, fun stopped => ?_⟩,
    fun tag line i s hi h => ⟨fun stopped => ?_, fun notStopped notStopping => ?_⟩⟩
  · exact s.serve_refuses _ _ _ rfl h fun l k => startLineBody_wrongState hi pinHigh (s.relinked l k) running
  · have starts := startLine_starts tag line pinHigh i s hi h stopped
    rw [Line.startState_eq] at starts
    exact starts
  · exact ⟨_, rfl, s.serve_unchanged _ _ (.ok _) h fun l k => stopLineBody_stopped hi (s.relinked l k) stopped⟩
  · obtain ⟨t, he, eq, others, carries, notices, at_i⟩ :=
      stopLine_stops tag line i s hi h (not_or.mpr ⟨notStopped, notStopping⟩)
    refine ⟨t, he, eq, others, carries, notices, ?_⟩
    rw [at_i, Line.stop_eq]
    split_ifs <;> rfl

end Sys2Proof.Machine
end

section
/-! PROOFS. Frames left with no place (R28), CONFIGURE_LINE (R21, R38) and RELEASE_FRAMES (R35, R158). -/

namespace Sys2Proof.Machine

/-! ### A frame is left with no place (R28) -/

/-- What a slot holds once its frame is left with no place: nothing, or the DETACHED frame. -/
def Frame.left (f : Frame) : Option Frame := if f.pins = 0 then none else some { f with place := .detached }

theorem Frame.left_left (f : Option Frame) : (f.bind Frame.left).bind Frame.left = f.bind Frame.left := by
  cases f with
  | none => rfl
  | some f =>
    by_cases h : f.pins = 0
    · simp [Frame.left, h]
    · simp [Frame.left, h]

theorem Capture.leave_frame_same (c : Capture) (id : Nat) :
    (c.leave id).frame? id = (c.frame? id).bind Frame.left := by
  unfold Capture.leave
  split
  next f hf =>
    rw [hf, Option.bind_some, Frame.left]
    split
    · unfold Capture.freeFrame
      rw [hf]
      exact lookupKey_eraseKey_same id c.slots
    · exact lookupKey_insertKey_same id _ c.slots
  next hf => rw [hf]; rfl

theorem Capture.leave_frame_other (c : Capture) (id j : Nat) (h : j ≠ id) : (c.leave id).frame? j = c.frame? j := by
  unfold Capture.leave
  split
  next f hf =>
    split
    · unfold Capture.freeFrame
      rw [hf]
      exact lookupKey_eraseKey_other id j h c.slots
    · exact lookupKey_insertKey_other id j h _ c.slots
  next => rfl

/-- It concerns the slots and the free page list alone. -/
theorem Capture.leave_only (c : Capture) (id : Nat) :
    c.leave id = { c with free := (c.leave id).free, slots := (c.leave id).slots } := by
  unfold Capture.leave
  split
  · split
    · unfold Capture.freeFrame
      split <;> rfl
    · rfl
  · rfl

theorem Capture.foldl_leave_only (ids : List Nat) (c : Capture) :
    ids.foldl Capture.leave c
      = { c with free := (ids.foldl Capture.leave c).free, slots := (ids.foldl Capture.leave c).slots } := by
  induction ids generalizing c with
  | nil => rfl
  | cons a rest ih =>
    rw [List.foldl_cons, ih (c.leave a)]
    rw [show (c.leave a).mem = c.mem by rw [c.leave_only a], show (c.leave a).hist = c.hist by rw [c.leave_only a],
      show (c.leave a).handed = c.handed by rw [c.leave_only a],
      show (c.leave a).pressure = c.pressure by rw [c.leave_only a],
      show (c.leave a).lowMark = c.lowMark by rw [c.leave_only a]]

theorem Capture.foldl_leave_frame_other (ids : List Nat) (c : Capture) (id : Nat) (h : id ∉ ids) :
    (ids.foldl Capture.leave c).frame? id = c.frame? id := by
  induction ids generalizing c with
  | nil => rfl
  | cons a rest ih =>
    obtain ⟨ha, hr⟩ := List.ne_and_not_mem_of_not_mem_cons h
    rw [List.foldl_cons, ih (c.leave a) hr, c.leave_frame_other a id ha]

/-- Of several frames left with no place, each is freed or DETACHED, even one that is named twice. -/
theorem Capture.foldl_leave_frame_mem (ids : List Nat) (c : Capture) (id : Nat) (h : id ∈ ids) :
    (ids.foldl Capture.leave c).frame? id = (c.frame? id).bind Frame.left := by
  induction ids generalizing c with
  | nil => exact (List.not_mem_nil h).elim
  | cons a rest ih =>
    rw [List.foldl_cons]
    by_cases again : id ∈ rest
    · rw [ih (c.leave a) again]
      by_cases e : id = a
      · rw [e, c.leave_frame_same a, Frame.left_left]
      · rw [c.leave_frame_other a id e]
    · obtain rfl : id = a := (List.mem_cons.mp h).resolve_right again
      rw [Capture.foldl_leave_frame_other rest _ id again, c.leave_frame_same id]

/-! ### CONFIGURE_LINE (R21, R38) -/

/-- The capture memory that an accepted CONFIGURE_LINE leaves, but for pool pressure. -/
theorem Capture.emptyHistory_only (c : Capture) (i : Fin 8) :
    c.emptyHistory i = { c with
      hist := c.hist.set i [], free := (c.emptyHistory i).free, slots := (c.emptyHistory i).slots } :=
  Capture.foldl_leave_only _ _

theorem Capture.emptyHistory_frame (c : Capture) (i : Fin 8) (id : Nat) (h : id ∈ c.hist[i]) :
    (c.emptyHistory i).frame? id = (c.frame? id).bind Frame.left :=
  Capture.foldl_leave_frame_mem _ _ id h

theorem Capture.emptyHistory_hist (c : Capture) (i : Fin 8) : (c.emptyHistory i).hist[i] = [] := by
  rw [show (c.emptyHistory i).hist = c.hist.set i [] by rw [c.emptyHistory_only i]]
  simp

theorem Capture.emptyHistory_hist_other (c : Capture) (i j : Fin 8) (h : j ≠ i) :
    (c.emptyHistory i).hist[j] = c.hist[j] := by
  have apart : i.val ≠ j.val := fun e => h (Fin.ext e.symm)
  simp only [show (c.emptyHistory i).hist = c.hist.set i [] by rw [c.emptyHistory_only i]]
  simp [apart]

theorem Capture.emptyHistory_mem (c : Capture) (i : Fin 8) : (c.emptyHistory i).mem = c.mem := by
  rw [c.emptyHistory_only i]

/-- The line that an accepted CONFIGURE_LINE leaves (R21). -/
def Line.configured (l : Line) (cfg : LineConfig) : Line :=
  { l with cfg := cfg, nextSeq := 0, counters := ⟨0, 0, 0, 0, 0, 0, 0⟩, attention := false }

theorem configureLineBody_wrongState {line : Byte} {i : Fin 8} (hi : lineOf line = some i) (arg : LineArg) (s : State)
    (h : s.lines[i].state ≠ .stopped ∨ s.capture.handed[i] ≠ []) :
    configureLineBody line arg s = (s, .bare .wrongState) := by
  unfold configureLineBody
  rw [hi]
  exact if_pos h

theorem configureLineBody_badArgument {line : Byte} {i : Fin 8} (hi : lineOf line = some i) {arg : LineArg} (s : State)
    (stopped : s.lines[i].state = .stopped) (handed : s.capture.handed[i] = []) (h : lineConfigOf arg = none) :
    configureLineBody line arg s = (s, .bare .badArgument) := by
  unfold configureLineBody
  simp only [hi, stopped, handed, h, ne_eq, not_true_eq_false, or_self, if_false]

theorem configureLineBody_accepted {line : Byte} {i : Fin 8} (hi : lineOf line = some i) {arg : LineArg} (s : State)
    (stopped : s.lines[i].state = .stopped) (handed : s.capture.handed[i] = []) {cfg : LineConfig}
    (h : lineConfigOf arg = some cfg) :
    configureLineBody line arg s
      = (State.conclude s (s.lineAt i (s.capture.emptyHistory i) (s.lines[i].configured cfg)), .ok []) := by
  unfold configureLineBody
  simp only [hi, stopped, handed, h, ne_eq, not_true_eq_false, or_self, if_false]
  rfl

/-- An accepted CONFIGURE_LINE (R21). -/
theorem configureLine_accepted (tag line : Byte) (arg : LineArg) (i : Fin 8) (s : State) (hi : lineOf line = some i)
    (h : s.Executing (.configureLine tag line arg)) (cfg : LineConfig) (stopped : s.lines[i].state = .stopped)
    (handed : s.capture.handed[i] = []) (hc : lineConfigOf arg = some cfg) :
    Completes (.configureLine tag line arg) s fun t =>
      t.Carries (.configureLine tag line arg) .ok [] ∧ t.capture.hist[i] = []
        ∧ t.lines[i] = s.lines[i].configured cfg
        ∧ (∀ id ∈ s.capture.hist[i], ∀ f, s.capture.frame? id = some f → t.capture.frame? id = f.left)
        ∧ (∀ j : Fin 8, j ≠ i → t.capture.hist[j] = s.capture.hist[j])
        ∧ t.capture.mem = s.capture.mem ∧ t.matcher = s.matcher ∧ t.inc = s.inc.evaluated ∧ t.store = s.store
        ∧ t.records = s.records ∧ t.time = s.time := by
  obtain ⟨t, l, k, he, only, carries, -⟩ := s.serve_ok _ _ _ _ rfl h fun l k =>
    configureLineBody_accepted hi (s.relinked l k) stopped handed hc
  refine ⟨t, he, carries, ?_⟩
  rw [only]
  have line_i := State.conclude_line (s.relinked l k)
    ((s.relinked l k).lineAt i (s.capture.emptyHistory i) (s.lines[i].configured cfg)) i
  rw [State.lineAt_same, Line.pressed_stopped (s.lines[i].configured cfg) _ _ stopped] at line_i
  refine ⟨?_, line_i, fun id hid f hf => ?_, fun j hj => ?_, ?_, ?_, ?_, ?_, ?_, ?_⟩
  · simp only [State.conclude_hist]
    exact s.capture.emptyHistory_hist i
  · have frame := s.capture.emptyHistory_frame i id hid
    rw [hf] at frame
    exact (State.conclude_frame _ _ id).trans frame
  · simp only [State.conclude_hist]
    exact s.capture.emptyHistory_hist_other i j hj
  · exact (State.conclude_mem _ _).trans (s.capture.emptyHistory_mem i)
  · exact State.conclude_matcher _ _
  · exact State.conclude_inc _ _
  · exact State.conclude_store _ _
  · exact State.conclude_records _ _
  · exact State.conclude_time _ _

/-- Settles O32: the two refusals, and the accepted request. -/
theorem configureLineReplacesTheConfiguration : Obligations.ConfigureLineReplacesTheConfiguration := by
  intro tag line arg i s hi h
  refine ⟨fun wrong => ?_, fun stopped handed bad => ?_, fun cfg stopped handed good => ?_⟩
  · exact s.serve_refuses _ _ _ rfl h fun l k => configureLineBody_wrongState hi arg (s.relinked l k) wrong
  · exact s.serve_refuses _ _ _ rfl h fun l k =>
      configureLineBody_badArgument hi (s.relinked l k) stopped handed bad
  · exact configureLine_accepted tag line arg i s hi h cfg stopped handed good

/-! ### RELEASE_FRAMES (R35, R158) -/

/-- The frames from a sequence number on are a last part of the list, and not empty. -/
theorem Capture.fromSeq_suffix {c : Capture} {seq : Half} {ids rest : List Nat} (h : c.fromSeq seq ids = some rest) :
    rest <:+ ids ∧ rest ≠ [] := by
  induction ids with
  | nil => exact (Option.some_ne_none rest h.symm).elim
  | cons a more ih =>
    unfold Capture.fromSeq at h
    split at h
    next =>
      obtain rfl := Option.some.inj h
      exact ⟨List.suffix_rfl, List.cons_ne_nil a more⟩
    next =>
      obtain ⟨suffix, nonempty⟩ := ih h
      exact ⟨suffix.trans (List.suffix_cons a more), nonempty⟩

/-- The capture memory that a release leaves, but for pool pressure. -/
theorem Capture.release_only (c : Capture) (i : Fin 8) (n : Nat) :
    c.release i n = { c with
      handed := c.handed.set i ((c.handed[i]).drop n), free := (c.release i n).free, slots := (c.release i n).slots } :=
  Capture.foldl_leave_only _ _

theorem Capture.release_hist (c : Capture) (i : Fin 8) (n : Nat) : (c.release i n).hist = c.hist := by
  rw [c.release_only i n]

theorem Capture.release_mem (c : Capture) (i : Fin 8) (n : Nat) : (c.release i n).mem = c.mem := by
  rw [c.release_only i n]

theorem Capture.release_handed (c : Capture) (i : Fin 8) (n : Nat) :
    (c.release i n).handed = c.handed.set i ((c.handed[i]).drop n) := by
  rw [c.release_only i n]

/-- The capture memory after a release and the evaluation of pool pressure. -/
def Capture.released (c : Capture) (i : Fin 8) (n : Nat) : Capture :=
  { c.release i n with pressure := Capture.pressureSince c (c.release i n) }

theorem Capture.released_total (c : Capture) (i : Fin 8) (n : Nat) :
    (c.released i n).total i = (c.hist[i]).length + ((c.handed[i]).length - n) := by
  unfold Capture.total Capture.released
  simp only [Capture.release_hist, Capture.release_handed]
  simp

/-- All that a release does: capture memory, the lines, EVT_OUT and the link. -/
theorem State.release_only (s : State) (i : Fin 8) (n : Nat) :
    s.release i n = { s with
      capture := s.capture.released i n, lines := (s.release i n).lines, inc := s.inc.evaluated
      link := (s.release i n).link } := by
  unfold State.release
  simp only
  rw [State.announce_only, State.evalPressure_eq, State.modLine_eq_lineAt]
  simp only [State.lineAt]
  rw [State.setPressure_only]
  rfl

/-- The line of a release: moved by pool pressure, then resumed. -/
theorem State.release_line (s : State) (i : Fin 8) (n : Nat) :
    (s.release i n).lines[i]
      = (s.lines[i].pressed (s.capture.release i n).pressure (s.capture.released i n).pressure).resume
          ((s.capture.released i n).total i) (s.capture.released i n).pressure := by
  unfold State.release
  simp only
  rw [State.announce_only, State.evalPressure_eq]
  simp only
  rw [State.modLine_same, State.setPressure_line, State.setPressure_only]
  rfl

theorem Line.resume_suspended (l : Line) (total : Nat) (pressure : Bool) (h : l.state = .suspended) :
    (l.resume total pressure).state
      = if total < l.cfg.depth then (if pressure = true ∧ l.cfg.sheddable = true then .shed else .active)
        else .suspended := by
  unfold Line.resume
  by_cases below : total < l.cfg.depth
  · simp [h, below]
  · simp [h, below]

/-- A SUSPENDED line after a release (R19, R35). -/
theorem State.release_line_suspended (s : State) (i : Fin 8) (n : Nat) (h : s.lines[i].state = .suspended)
    (hn : n ≤ (s.capture.handed[i]).length) :
    (s.release i n).lines[i].state
      = if (s.capture.hist[i]).length + (s.capture.handed[i]).length - n < s.lines[i].cfg.depth
        then (if (s.capture.released i n).pressure = true ∧ s.lines[i].cfg.sheddable = true then .shed else .active)
        else .suspended := by
  rw [State.release_line, Line.pressed_suspended _ _ _ h, Line.resume_suspended _ _ _ h, Capture.released_total,
    Nat.add_sub_assoc hn]

theorem releaseFramesBody_notFound {line : Byte} {i : Fin 8} (hi : lineOf line = some i) (seq : Half) (s : State)
    (feed : s.lines[i].cfg.policy = .feed) (h : s.capture.fromSeq seq s.capture.handed[i] = none) :
    releaseFramesBody line seq s = (s, .bare .notFound) := by
  unfold releaseFramesBody
  simp only [hi, feed, reduceCtorEq, if_false, h]

/-- The reply data of RELEASE_FRAMES (R158): what was released of the `n` frames in hand, and what is left. -/
def State.releaseReply (s t : State) (i : Fin 8) (n : Nat) : List Byte :=
  let freed := s.capture.unpinned ((s.capture.handed[i]).take n)
  u8 i.val ++ u8 n ++ u8 freed ++ u8 (n - freed) ++ u8 (t.capture.hist[i]).length
    ++ u8 (t.capture.handed[i]).length ++ [t.lines[i].state.code] ++ u16 t.capture.freeCount

theorem releaseFramesBody_released {line : Byte} {i : Fin 8} (hi : lineOf line = some i) (seq : Half) (s : State)
    (feed : s.lines[i].cfg.policy = .feed) {rest : List Nat}
    (h : s.capture.fromSeq seq s.capture.handed[i] = some rest) :
    let n := (s.capture.handed[i]).length + 1 - rest.length
    releaseFramesBody line seq s = (s.release i n, .ok (s.releaseReply (s.release i n) i n)) := by
  unfold releaseFramesBody
  simp only [hi, feed, reduceCtorEq, if_false, h]
  rfl

/-- Frames that a release removes from the list are freed or DETACHED, and no other frame is touched (R28, R35). -/
theorem Capture.released_frame (c : Capture) (i : Fin 8) (n id : Nat) :
    (c.released i n).frame? id
      = if id ∈ (c.handed[i]).take n then (c.frame? id).bind Frame.left else c.frame? id := by
  split
  next gone => exact Capture.foldl_leave_frame_mem _ _ id gone
  next kept => exact Capture.foldl_leave_frame_other _ _ id kept

/-- The reply data in the terms of the state before the release. -/
theorem State.releaseReply_eq (s : State) (i : Fin 8) (n : Nat) :
    s.releaseReply (s.release i n) i n
      = u8 i.val ++ u8 n ++ u8 (s.capture.unpinned ((s.capture.handed[i]).take n))
        ++ u8 (n - s.capture.unpinned ((s.capture.handed[i]).take n)) ++ u8 (s.capture.hist[i]).length
        ++ u8 ((s.capture.handed[i]).length - n) ++ [(s.release i n).lines[i].state.code]
        ++ u16 (s.capture.released i n).free.length := by
  have capture : (s.release i n).capture = s.capture.released i n := by rw [State.release_only]
  have hist : (s.capture.released i n).hist = s.capture.hist := s.capture.release_hist i n
  have handed : (s.capture.released i n).handed[i].length = (s.capture.handed[i]).length - n := by
    simp only [show (s.capture.released i n).handed = _ from s.capture.release_handed i n]
    simp
  unfold State.releaseReply
  simp only [capture, hist, handed]
  rfl

/-- Settles O37: the refusal, and the release of what `fromSeq` leaves out. -/
theorem releaseFramesFreesAndResumes : Obligations.ReleaseFramesFreesAndResumes := by
  intro tag line seq i s rest hi h feed
  refine ⟨fun absent => ?_, fun found => ?_⟩
  · exact s.serve_refuses _ _ _ rfl h fun l k => releaseFramesBody_notFound hi seq (s.relinked l k) feed absent
  obtain ⟨suffix, nonempty⟩ := Capture.fromSeq_suffix found
  have short := suffix.length_le
  have long := List.length_pos_iff.mpr nonempty
  obtain ⟨t, l, k, he, only, carries, -⟩ := s.serve_ok _ _ _ _ rfl h fun l k =>
    releaseFramesBody_released hi seq (s.relinked l k) feed found
  refine ⟨t, he, ?_⟩
  beta_reduce
  intro n gone freed
  have hn : n ≤ (s.capture.handed[i]).length := by omega
  change t = { (s.relinked l k).release i n with link := t.link } at only
  have line_i : t.lines[i] = ((s.relinked l k).release i n).lines[i] := by rw [only]
  rw [State.release_only] at only
  have capture : t.capture = s.capture.released i n := by rw [only]; rfl
  rw [line_i, capture]
  refine ⟨s.capture.release_handed i n, s.capture.release_hist i n, fun id hid f hf => ?_, fun id hid => ?_,
    fun hs => ?_, ?_, s.capture.release_mem i n, ?_, ?_, ?_, ?_, ?_⟩
  · rw [Capture.released_frame, if_pos hid, hf]
    rfl
  · rw [Capture.released_frame, if_neg hid]
  · exact (s.relinked l k).release_line_suspended i n hs hn
  · exact (s.relinked l k).releaseReply_eq i n ▸ carries
  all_goals
    rw [only]
    rfl

end Sys2Proof.Machine
end

section
/-! PROOFS. SET_POOL_MARK and the notices of a change of pool pressure (R42 to R45, R200). -/

namespace Sys2Proof.Machine

/-! ### The notices of a change of pool pressure (R44, R196) -/

/-- A list of optional values filtered is a filtered list mapped. -/
theorem filter_filterMap_ite {α β : Type} (p : α → Bool) (g : α → β) (pass : β → Bool) (l : List α) :
    (l.filterMap fun a => if p a = true then none else some (g a)).filter pass
      = (l.filter fun a => !p a && pass (g a)).map g := by
  induction l with
  | nil => rfl
  | cons a rest ih =>
    cases hp : p a <;> cases hg : pass (g a) <;> simp [hp, hg, ih]

/-- The LINE_STATE notices that the masks let pass, when their kind does (R196). -/
theorem lineNotices_passing (s t : State) (kind : s.link.kindMask.getLsbD 2 = true) :
    (lineNotices s t).filter s.link.passes
      = (allLines.filter fun i => s.lines[i].state != t.lines[i].state && s.link.lineMask.getLsbD i.val).map fun i =>
          .lineState i t.lines[i].state s.lines[i].state t.lines[i].attention := by
  have general := filter_filterMap_ite (fun i : Fin 8 => decide (s.lines[i].state = t.lines[i].state))
    (fun i => Notice.lineState i t.lines[i].state s.lines[i].state t.lines[i].attention) s.link.passes allLines
  simp only [decide_eq_true_eq] at general
  refine general.trans (congrArg (List.map _) (List.filter_congr fun i _ => ?_))
  have passes : s.link.passes (.lineState i t.lines[i].state s.lines[i].state t.lines[i].attention)
      = s.link.lineMask.getLsbD i.val := by
    simp only [Link.passes, Notice.kind, inSet, kind, Bool.true_and]
  rw [passes]
  rfl

/-- What an event that may change pool pressure announces, of what the masks let pass. -/
theorem notices_passing (s t : State) (kinds : ∀ k ∈ [2, 3], s.link.kindMask.getLsbD k = true)
    (calm : t.capture.pressure = s.capture.pressure → ∀ j : Fin 8, t.lines[j].state = s.lines[j].state) :
    (lineNotices s t ++ pressureNotices s t).filter s.link.passes = s.pressureNotices t := by
  rw [List.filter_append, lineNotices_passing s t (kinds 2 (by simp))]
  unfold State.pressureNotices pressureNotices
  by_cases same : t.capture.pressure = s.capture.pressure
  · have none_moved : (allLines.filter fun i =>
        s.lines[i].state != t.lines[i].state && s.link.lineMask.getLsbD i.val) = [] :=
      List.filter_eq_nil_iff.mpr fun j _ => by rw [calm same j]; simp
    rw [none_moved, if_pos same, if_pos same.symm]
    rfl
  · have passes : ∀ on n m, s.link.passes (.poolPressure on n m) = true := fun _ _ _ => kinds 3 (by simp)
    rw [if_neg same, if_neg (Ne.symm same)]
    simp only [List.filter_cons, passes, if_true, List.filter_nil]
    rfl

/-- Nine notices at most: one a line, and POOL_PRESSURE. -/
theorem State.pressureNotices_length (s t : State) : (s.pressureNotices t).length ≤ 9 := by
  have lines := List.length_filter_le (fun i : Fin 8 =>
    s.lines[i].state != t.lines[i].state && s.link.lineMask.getLsbD i.val) allLines
  have eight : allLines.length = 8 := List.length_finRange
  unfold State.pressureNotices
  split
  · exact Nat.zero_le 9
  · simp only [List.length_append, List.length_map, List.length_singleton]
    omega

/-- With room for nine notices, those of the event join the queue in order. -/
theorem State.announce_pressure (s t : State) (q : s.Queues 9 [2, 3]) (link : t.link = s.link)
    (calm : t.capture.pressure = s.capture.pressure → ∀ j : Fin 8, t.lines[j].state = s.lines[j].state) :
    (State.announce s t).link.notices.map (fun q => q.notice)
      = s.link.notices.map (fun q => q.notice) ++ s.pressureNotices t := by
  obtain ⟨busy, room, kinds⟩ := q
  have passing := notices_passing s t kinds calm
  have few := s.pressureNotices_length t
  have same : t.evalEvtOut.link = s.link := link
  have joins := State.notifyAll_joins (lineNotices s t ++ Machine.pressureNotices s t) t.evalEvtOut
  rw [same, passing] at joins
  exact joins busy (by omega)

theorem State.announce_busy (s t : State) (h : t.link.tx ≠ none) : (State.announce s t).link.tx ≠ none := by
  have kept := State.notifyAll_busy (lineNotices s t ++ Machine.pressureNotices s t) t.evalEvtOut h
  exact kept ▸ h

/-- The notices of an event that changes pool pressure alone. -/
theorem State.announce_setPressure (s u : State) (on : Bool) (q : s.Queues 9 [2, 3]) (link : u.link = s.link)
    (pressure : u.capture.pressure = s.capture.pressure) (states : ∀ j : Fin 8, u.lines[j].state = s.lines[j].state) :
    (State.announce s (u.setPressure on)).link.notices.map (fun q => q.notice)
      = s.link.notices.map (fun q => q.notice) ++ s.pressureNotices (u.setPressure on) := by
  refine s.announce_pressure _ q ?_ fun same j => ?_
  · rw [State.setPressure_only]
    exact link
  · have on_eq : on = u.capture.pressure := by
      rw [State.setPressure_only] at same
      exact same.trans pressure.symm
    rw [on_eq, State.setPressure_same, states j]

/-- The notices depend on the lines, the capture memory and the line mask alone. -/
theorem State.pressureNotices_congr (s : State) {t v : State} (lines : t.lines = v.lines)
    (capture : t.capture = v.capture) : s.pressureNotices t = s.pressureNotices v := by
  unfold State.pressureNotices
  rw [lines, capture]

/-! ### SET_POOL_MARK (R45) -/

theorem setPoolMarkBody_badArgument {mark : Half} (h : 512 < mark.toNat) (s : State) :
    setPoolMarkBody mark s = (s, .bare .badArgument) := if_pos h

/-- The state with a new low mark. -/
def State.marked (s : State) (mark : Half) : State := { s with capture := { s.capture with lowMark := mark.toNat } }

theorem setPoolMarkBody_accepted {mark : Half} (h : mark.toNat ≤ 512) (s : State) :
    let on := pressureAfter s.capture.pressure s.capture.free.length mark.toNat
    setPoolMarkBody mark s
      = (State.announce s ((s.marked mark).setPressure on),
        .ok (u16 mark.toNat ++ [boolByte on] ++ u16 s.capture.free.length)) := by
  intro on
  have body : setPoolMarkBody mark s = (State.announce s ((s.marked mark).setPressure on),
      .ok (u16 (State.announce s ((s.marked mark).setPressure on)).capture.lowMark
        ++ [boolByte (State.announce s ((s.marked mark).setPressure on)).capture.pressure]
        ++ u16 (State.announce s ((s.marked mark).setPressure on)).capture.freeCount)) :=
    if_neg (Nat.not_lt.mpr h)
  have capture : (State.announce s ((s.marked mark).setPressure on)).capture
      = { s.capture with lowMark := mark.toNat, pressure := on } := by
    rw [State.announce_only, State.setPressure_only]
    rfl
  rw [body, capture]
  rfl

/-- An accepted SET_POOL_MARK (R45). -/
theorem setPoolMark_accepted (tag : Byte) (mark : Half) (s : State) (h : s.Executing (.setPoolMark tag mark))
    (hm : mark.toNat ≤ 512) :
    let on := pressureAfter s.capture.pressure s.capture.free.length mark.toNat
    Completes (.setPoolMark tag mark) s fun t =>
      t = { s with capture := { s.capture with lowMark := mark.toNat, pressure := on }, lines := t.lines,
                   inc := s.inc.evaluated, link := t.link, freeKey := t.freeKey }
        ∧ (∀ i : Fin 8, t.lines[i] = s.lines[i].pressed s.capture.pressure on)
        ∧ (s.Queues 9 [2, 3] → t.link.notices.map (fun q => q.notice)
            = s.link.notices.map (fun q => q.notice) ++ s.pressureNotices t)
        ∧ t.Carries (.setPoolMark tag mark) .ok (u16 mark.toNat ++ [boolByte on] ++ u16 s.capture.free.length) := by
  intro on
  obtain ⟨t, l, k, he, only, carries, queue⟩ := s.serve_ok _ _ _ _ rfl h fun l k =>
    setPoolMarkBody_accepted hm (s.relinked l k)
  change t = { State.announce (s.relinked l k) (((s.relinked l k).marked mark).setPressure on) with link := t.link }
    at only
  have lines : t.lines = (((s.relinked l k).marked mark).setPressure on).lines := by
    rw [only, State.announce_only]
  have capture : t.capture = (((s.relinked l k).marked mark).setPressure on).capture := by
    rw [only, State.announce_only]
  refine ⟨t, he, ?_, fun i => ?_, fun q => ?_, carries⟩
  · rw [only, State.announce_only, State.setPressure_only]
    rfl
  · simp only [lines]
    exact State.setPressure_line _ _ _
  · obtain ⟨rfl, queue⟩ := queue q.1
    have busy : (State.announce (s.relinked s.link k)
        (((s.relinked s.link k).marked mark).setPressure on)).link.tx ≠ none :=
      State.announce_busy _ _ (by rw [State.setPressure_only]; exact q.1)
    rw [queue busy, State.pressureNotices_congr s lines capture]
    exact (s.relinked s.link k).announce_setPressure _ on q rfl rfl fun _ => rfl

end Sys2Proof.Machine
end

section
/-! PROOFS. Characters and the idle timer of one line: the rules of its receiver, and what they do outside a frame
(R1 to R3, R5, R7, R9, R10). -/

namespace Sys2Proof.Machine

/-! ### Running lines -/

/-- The line looks for characters outside STOPPING (R4, R17). -/
def Line.Running (l : Line) : Prop := l.state = .active ∨ l.state = .suspended ∨ l.state = .shed

theorem Line.Running.ne_stopping {l : Line} (h : l.Running) : l.state ≠ .stopping := by
  obtain h | h | h := h <;> rw [h] <;> exact LineState.noConfusion

theorem Line.Running.samples {l : Line} (h : l.Running) : l.samples = true := by
  obtain h | h | h := h <;> simp [Line.samples, h]

/-- A frame begins on a running line, taken as its state says (R5). -/
theorem Line.Running.begin_eq {l : Line} (h : l.Running) (t : Timebase) : l.begin t = l.begun t := by
  obtain h | h | h := h <;> simp [Line.begin, Line.takes, Line.begun, Line.fresh, h]

theorem Line.finishStop_running {l : Line} (h : l.state ≠ .stopping) : l.finishStop = l := by
  simp [Line.finishStop, h]

theorem Line.pass_running {l : Line} (h : l.state ≠ .stopping) (r : Reception) (left : Option Nat) :
    l.pass r left = { l with reception := r, current := none, escape := false, discardLeft := left } := if_neg h

theorem Line.toHunt_running {l : Line} (h : l.state ≠ .stopping) :
    l.toHunt = { l with reception := .hunt, current := none, escape := false, discardLeft := none } :=
  Line.pass_running h .hunt none

theorem Line.toDiscard_running {l : Line} (h : l.state ≠ .stopping) {left : Option Nat} (hl : left ≠ some 0) :
    l.toDiscard left = { l with reception := .discarding, current := none, escape := false, discardLeft := left } :=
  (if_neg hl).trans (Line.pass_running h .discarding left)

theorem Line.afterCharacter_eq (l : Line) (now : Stamp) (errored stopHigh : Bool) :
    l.afterCharacter now errored stopHigh = l.charDone now errored stopHigh := by
  cases errored <;> rfl

/-! ### The events of a line -/

/-- A line's event that ends in a running line with at most two frames awaiting classification. -/
theorem State.endLineEvent_lineAt (s : State) (i : Fin 8) (c : Capture) (m : Line) (h : m.state ≠ .stopping) :
    State.endLineEvent s (s.lineAt i c m) i = State.conclude s (s.lineAt i c m) := by
  unfold State.endLineEvent
  rw [State.lineAt_modLine, Line.finishStop_running h]

theorem State.conclude_awaiting (s : State) (i : Fin 8) (c : Capture) (m : Line) :
    (State.conclude s (s.lineAt i c m)).lines[i].awaiting = m.awaiting := by
  rw [State.conclude_line, Line.pressed_awaiting, State.lineAt_same]

/-- Without a third frame to await classification, an event is not paced (R55, log 11). -/
theorem State.paced_lineAt (s : State) (i : Fin 8) (event : State → State) (c : Capture) (m : Line)
    (h : event s = State.conclude s (s.lineAt i c m)) (hw : m.awaiting.length ≤ 2) :
    s.paced i event = State.conclude s (s.lineAt i c m) := by
  unfold State.paced
  rw [h, State.conclude_awaiting, if_pos hw]

/-- CHARACTER_COMPLETION on a line that samples: the character by the line's mode, then the end of the event. -/
theorem exec_characterCompletion {s : State} {i : Fin 8} {bits value : Byte} {parityBit stopHigh errored : Bool}
    {n : Nat} {c : Capture} {m : Line} (h : s.Sampling i n) (hv : charValue s.lines[i].cfg.sevenBits bits = value)
    (he : (parityError s.lines[i].cfg.parity value parityBit || !stopHigh) = errored)
    (run : (s.lineAt i s.capture (s.lines[i].charDone s.time.elapsed errored stopHigh)).character i value errored
      = s.lineAt i c m) (state : m.state = s.lines[i].state) (hw : m.awaiting.length ≤ 2) :
    exec (.characterCompletion i bits parityBit stopHigh) s = .next (State.conclude s (s.lineAt i c m)) := by
  obtain ⟨running, low, -⟩ := h
  have moving : m.state ≠ .stopping := state ▸ Line.Running.ne_stopping running
  have looks : (s.lines[i].samples && !s.lines[i].awaitHigh) = true := by
    rw [Line.Running.samples running, low]; rfl
  have event : State.completeCharacter i bits parityBit stopHigh s = State.conclude s (s.lineAt i c m) := by
    unfold State.completeCharacter
    simp only [hv, he, State.modLine_eq_lineAt, Line.afterCharacter_eq]
    rw [run, State.endLineEvent_lineAt s i c m moving]
  have paced := s.paced_lineAt i _ c m event hw
  show execCharacterCompletion i bits parityBit stopHigh s = _
  unfold execCharacterCompletion
  rw [if_pos looks, paced]

/-- The same without a reason for pool pressure to change: the whole next state. -/
theorem characterCompletion_leaves {s : State} {i : Fin 8} {bits value : Byte} {parityBit stopHigh errored : Bool}
    {n : Nat} {c : Capture} {m : Line} (h : s.Sampling i n) (hv : charValue s.lines[i].cfg.sevenBits bits = value)
    (he : (parityError s.lines[i].cfg.parity value parityBit || !stopHigh) = errored)
    (run : (s.lineAt i s.capture (s.lines[i].charDone s.time.elapsed errored stopHigh)).character i value errored
      = s.lineAt i c m) (state : m.state = s.lines[i].state) (hw : m.awaiting.length ≤ 2)
    (calm : Capture.CalmSince s.capture c) :
    exec (.characterCompletion i bits parityBit stopHigh) s
      = .next { s with inc := s.inc.evaluated, capture := c, lines := s.lines.set i m } := by
  rw [exec_characterCompletion h hv he run state hw, State.conclude_lineAt s i c m state calm]

theorem Capture.calmSince_refl (c : Capture) : Capture.CalmSince c c := Capture.calmSince_of_free rfl rfl

/-- IDLE_TIMER_EXPIRY on a running line (R3): the clocks at its point, then the whole next state. -/
theorem idleTimerExpiry_leaves {s : State} {i : Fin 8} {v : IdleInterval} {c : Capture} {m : Line}
    (running : s.lines[i].Running) (idle : s.lines[i].idle = some v) (outside : s.lines[i].inCharacter = false)
    (event : State.idleExpires i (s.advanceTo (s.lines[i].idlePoint v))
      = State.conclude (s.advanceTo (s.lines[i].idlePoint v)) ((s.advanceTo (s.lines[i].idlePoint v)).lineAt i c m))
    (state : m.state = s.lines[i].state) (hw : m.awaiting.length ≤ 2) (calm : Capture.CalmSince s.capture c) :
    exec (.idleTimerExpiry i) s = .next { s with
      inc := s.inc.evaluated, time := s.time.advanceTo (s.lines[i].idlePoint v), capture := c
      lines := s.lines.set i m } := by
  have looks : (s.lines[i].samples && !s.lines[i].inCharacter) = true := by
    rw [running.samples, outside]; rfl
  have paced := (s.advanceTo (s.lines[i].idlePoint v)).paced_lineAt i _ c m event hw
  show execIdleTimerExpiry i s = _
  unfold execIdleTimerExpiry
  simp only [idle]
  rw [if_pos looks, paced, State.conclude_lineAt (s.advanceTo (s.lines[i].idlePoint v)) i c m state calm]
  rfl

/-- The line once its idle interval has ended at the idle time (R3). -/
def Line.idled (l : Line) : Line := { l with idle := none }

/-- What the idle timer does outside a frame (R7, R9, R10): DISCARDING enters HUNT. -/
theorem State.idleExpires_outside (s : State) (i : Fin 8) (running : s.lines[i].Running)
    (alone : s.lines[i].current = none) :
    State.idleExpires i s = State.conclude s (s.lineAt i s.capture
      (if s.lines[i].reception = .discarding then
        { s.lines[i] with idle := none, reception := .hunt, escape := false, discardLeft := none }
       else { s.lines[i] with idle := none })) := by
  have moving := running.ne_stopping
  have hunts : s.lines[i].idled.toHunt
      = { s.lines[i] with idle := none, reception := .hunt, escape := false, discardLeft := none } := by
    rw [Line.toHunt_running (l := s.lines[i].idled) moving, ← alone]
    rfl
  unfold State.idleExpires
  cases reception : s.lines[i].reception with
  | discarding =>
    simp only [State.modLine_eq_lineAt s, State.lineAt_modLine, if_true]
    show State.endLineEvent s (s.lineAt i s.capture s.lines[i].idled.toHunt) i = _
    rw [hunts]
    exact s.endLineEvent_lineAt i _ _ moving
  | hunt =>
    simp only [State.modLine_eq_lineAt s, reduceCtorEq, if_false]
    exact s.endLineEvent_lineAt i _ _ moving
  | receiving =>
    simp only [alone, State.modLine_eq_lineAt s, reduceCtorEq, if_false]
    exact s.endLineEvent_lineAt i _ _ moving

/-! ### A character by the mode of its line -/

section
variable (s : State) (i : Fin 8) (c : Capture) (a : Line) (b : Byte) (errored : Bool)

theorem State.character_gap (mode : a.cfg.mode = .gap) :
    (s.lineAt i c a).character i b errored = (s.lineAt i c a).gapCharacter i b errored := by
  unfold State.character
  rw [State.lineAt_same, mode]

theorem State.character_marked (mode : a.cfg.mode = .marked) :
    (s.lineAt i c a).character i b errored = (s.lineAt i c a).markedCharacter i b errored := by
  unfold State.character
  rw [State.lineAt_same, mode]

theorem State.character_counted (mode : a.cfg.mode = .counted) :
    (s.lineAt i c a).character i b errored = (s.lineAt i c a).countedCharacter i b errored := by
  unfold State.character
  rw [State.lineAt_same, mode]

/-- A GAP line in DISCARDING stays there (R7). -/
theorem State.gapCharacter_discarding (h : a.reception = .discarding) :
    (s.lineAt i c a).gapCharacter i b errored = s.lineAt i c a := by
  unfold State.gapCharacter
  simp only [State.lineAt_same, h, reduceCtorEq, if_false]

/-- A MARKED line in HUNT ignores all but an error-free start byte (R9). -/
theorem State.markedCharacter_hunt_other (h : a.reception = .hunt) (other : ¬ (errored = false ∧ b = a.cfg.startByte)) :
    (s.lineAt i c a).markedCharacter i b errored = s.lineAt i c a := by
  have ignored : (!errored && b == a.cfg.startByte) = false := by simpa using other
  unfold State.markedCharacter
  simp only [State.lineAt_same, h, ignored, Bool.false_eq_true, if_false]

/-- An error-free start byte begins a frame on it (R9). -/
theorem State.markedCharacter_hunt_start (h : a.reception = .hunt) (running : a.Running) (clean : errored = false)
    (start : b = a.cfg.startByte) :
    (s.lineAt i c a).markedCharacter i b errored = s.lineAt i c (a.begun s.time) := by
  have begins : (!errored && b == a.cfg.startByte) = true := by simp [clean, start]
  unfold State.markedCharacter
  simp only [State.lineAt_same, h, begins, if_true, State.lineAt_modLine, State.lineAt_time, running.begin_eq]

/-- A MARKED line in DISCARDING (R9). -/
theorem State.markedCharacter_discarding (h : a.reception = .discarding) :
    (s.lineAt i c a).markedCharacter i b errored = s.lineAt i c (a.markedDiscard s.time b errored) := by
  unfold State.markedCharacter
  simp only [State.lineAt_same, h, State.lineAt_modLine, State.lineAt_time]

/-- A COUNTED line in DISCARDING (R10). -/
theorem State.countedCharacter_discarding (h : a.reception = .discarding) :
    (s.lineAt i c a).countedCharacter i b errored = s.lineAt i c a.passOne := by
  unfold State.countedCharacter
  simp only [State.lineAt_same, h, if_true, State.lineAt_modLine]

end

/-! ### DISCARDING of a MARKED line (R9) -/

section
variable {a : Line} {t : Timebase} {b : Byte} {errored : Bool}

theorem Line.markedDiscard_escaped (h : a.escape = true) : a.markedDiscard t b errored = { a with escape := false } :=
  if_pos h

theorem Line.markedDiscard_start (running : a.Running) (h : a.escape = false) (clean : errored = false)
    (start : b = a.cfg.startByte) : a.markedDiscard t b errored = a.begun t := by
  simp [Line.markedDiscard, h, clean, start, running.begin_eq]

theorem Line.markedDiscard_end (running : a.Running) (alone : a.current = none) (h : a.escape = false)
    (clean : errored = false) (start : b ≠ a.cfg.startByte) (ends : b = a.cfg.endByte) :
    a.markedDiscard t b errored = { a with reception := .hunt, discardLeft := none } := by
  have discard : a.markedDiscard t b errored = a.toHunt := by
    unfold Line.markedDiscard
    rw [if_neg (by simp [h]), if_neg (by simp [clean]), if_neg start, if_pos ends]
  rw [discard, Line.toHunt_running running.ne_stopping, ← alone, ← h]

theorem Line.markedDiscard_escape (h : a.escape = false) (clean : errored = false) (start : b ≠ a.cfg.startByte)
    (ends : b ≠ a.cfg.endByte) (escapes : b = a.cfg.escapeByte) :
    a.markedDiscard t b errored = { a with escape := true } := by
  unfold Line.markedDiscard
  rw [if_neg (by simp [h]), if_neg (by simp [clean]), if_neg start, if_neg ends, if_pos escapes]

theorem Line.markedDiscard_other (h : a.escape = false)
    (other : errored = true ∨ (b ≠ a.cfg.startByte ∧ b ≠ a.cfg.endByte ∧ b ≠ a.cfg.escapeByte)) :
    a.markedDiscard t b errored = a := by
  unfold Line.markedDiscard
  rw [if_neg (by simp [h])]
  obtain bad | ⟨start, ends, escapes⟩ := other
  · rw [if_pos bad]
  · rw [if_neg start, if_neg ends, if_neg escapes, ite_self]

/-! ### DISCARDING of a COUNTED line (R10) -/

theorem Line.passOne_unknown (h : a.discardLeft = none) : a.passOne = a := by
  simp [Line.passOne, h]

theorem Line.passOne_last (running : a.Running) (alone : a.current = none) {n : Nat} (h : a.discardLeft = some n)
    (hn : n ≤ 1) : a.passOne = { a with reception := .hunt, escape := false, discardLeft := none } := by
  have last : a.passOne = a.toHunt := by
    obtain rfl | rfl : n = 0 ∨ n = 1 := by omega
    · simp [Line.passOne, h]
    · simp [Line.passOne, h]
  rw [last, Line.toHunt_running running.ne_stopping, ← alone]

theorem Line.passOne_more {n : Nat} (h : a.discardLeft = some n) (hn : 2 ≤ n) :
    a.passOne = { a with discardLeft := some (n - 1) } := by
  obtain ⟨k, rfl⟩ := Nat.exists_eq_add_of_le' hn
  simp [Line.passOne, h]

end

/-! ### Start bits, and the pin sampled high (R1 to R3) -/

theorem exec_startBit_low (i : Fin 8) (s : State) (samples : s.lines[i].samples = true)
    (low : s.lines[i].awaitHigh = false) (outside : s.lines[i].inCharacter = false) :
    exec (.startBit i true) s = .next { s with
      lines := s.lines.set i { s.lines[i] with inCharacter := true, idle := none } } := by
  have looks : (s.lines[i].samples && !s.lines[i].awaitHigh && !s.lines[i].inCharacter && true) = true := by
    rw [samples, low, outside]; rfl
  exact if_pos looks

theorem exec_startBit_high (i : Fin 8) (s : State) : exec (.startBit i false) s = .next s :=
  if_neg (by rw [Bool.and_false]; exact Bool.false_ne_true)

theorem exec_pinSampledHigh (i : Fin 8) (s : State) (samples : s.lines[i].samples = true)
    (waits : s.lines[i].awaitHigh = true) :
    exec (.pinSampledHigh i) s = .next { s with
      lines := s.lines.set i { s.lines[i] with awaitHigh := false, idle := some ⟨s.time.elapsed, 0⟩ } } := by
  have looks : (s.lines[i].samples && s.lines[i].awaitHigh) = true := by rw [samples, waits]; rfl
  exact if_pos looks

/-- Settles O26: the events outside a character, then the character by mode and reception state, then the timer. -/
theorem charactersOutsideAFrame : Obligations.CharactersOutsideAFrame := by
  refine ⟨fun i s samples low outside =>
      ⟨exec_startBit_low i s samples low outside, exec_startBit_high i s⟩,
    exec_pinSampledHigh, ?_, ?_⟩
  · intro i bits parityBit stopHigh s l value errored sampling alone a leaves marker
    have running : a.Running := sampling.1
    have alone : a.current = none := alone
    have go : ∀ m, (s.lineAt i s.capture a).character i value errored = s.lineAt i s.capture m →
        m.state = s.lines[i].state → m.awaiting.length ≤ 2 → leaves m := fun m run state hw =>
      characterCompletion_leaves sampling rfl rfl run state hw s.capture.calmSince_refl
    have few : a.awaiting.length ≤ 2 := sampling.2.2
    have gap := s.character_gap i s.capture a value errored
    have marked := s.character_marked i s.capture a value errored
    have counted := s.character_counted i s.capture a value errored
    have markedDiscarding := s.markedCharacter_discarding i s.capture a value errored
    have countedDiscarding := s.countedCharacter_discarding i s.capture a value errored
    refine ⟨fun mode reception => ?_, fun mode reception other => ?_, fun mode reception clean start => ?_,
      fun mode reception => ⟨fun escape => ?_, fun marker start => ?_, fun marker start ends => ?_,
        fun marker start ends escapes => ?_, fun escape other => ?_⟩,
      fun mode reception => ⟨fun left => ?_, fun n left last => ?_, fun n left more => ?_⟩⟩
    · exact go _ ((gap mode).trans (s.gapCharacter_discarding i _ a _ _ reception)) rfl few
    · exact go _ ((marked mode).trans (s.markedCharacter_hunt_other i _ a _ _ reception other)) rfl few
    · exact go _ ((marked mode).trans (s.markedCharacter_hunt_start i _ a _ _ reception running clean start)) rfl few
    · exact go _ (((marked mode).trans (markedDiscarding reception)).trans
        (congrArg _ (Line.markedDiscard_escaped escape))) rfl few
    · exact go _ (((marked mode).trans (markedDiscarding reception)).trans
        (congrArg _ (Line.markedDiscard_start running marker.1 marker.2 start))) rfl few
    · exact go _ (((marked mode).trans (markedDiscarding reception)).trans
        (congrArg _ (Line.markedDiscard_end running alone marker.1 marker.2 start ends))) rfl few
    · exact go _ (((marked mode).trans (markedDiscarding reception)).trans
        (congrArg _ (Line.markedDiscard_escape marker.1 marker.2 start ends escapes))) rfl few
    · exact go _ (((marked mode).trans (markedDiscarding reception)).trans
        (congrArg _ (Line.markedDiscard_other escape other))) rfl few
    · exact go _ (((counted mode).trans (countedDiscarding reception)).trans
        (congrArg _ (Line.passOne_unknown left))) rfl few
    · exact go _ (((counted mode).trans (countedDiscarding reception)).trans
        (congrArg _ (Line.passOne_last running alone left last))) rfl few
    · exact go _ (((counted mode).trans (countedDiscarding reception)).trans
        (congrArg _ (Line.passOne_more left more))) rfl few
  · intro i s v l running idle outside few alone
    refine idleTimerExpiry_leaves running idle outside (State.idleExpires_outside _ i running alone) ?_ ?_
      s.capture.calmSince_refl
    · split_ifs <;> rfl
    · split_ifs <;> exact few

end Sys2Proof.Machine
end

section
/-! PROOFS. Frames in reception: the end of a frame, its bytes, and the pages they take (R5, R6, R9, R11 to R14, R26,
R27), and the GAP mode (R7). -/

namespace Sys2Proof.Machine

/-! ### The end of a frame (R5, R9, R11 to R14) -/

/-- Capture memory once a slot holds a frame as its line completes it. -/
def Capture.holding (c : Capture) (id : Nat) (g : Frame) : Capture := { c with slots := insertKey id g c.slots }

theorem Capture.holding_calm (c : Capture) (id : Nat) (g : Frame) : Capture.CalmSince c (c.holding id g) :=
  Capture.calmSince_of_free rfl rfl

theorem Capture.CalmSince.holding {old c : Capture} (h : Capture.CalmSince old c) (id : Nat) (g : Frame) :
    Capture.CalmSince old (c.holding id g) := h

theorem Line.handOn_toHunt {m : Line} (moving : m.state ≠ .stopping) (id : Nat) (g : Frame) :
    (m.handOn id (isBad g.check g.flags) g.flags.cut).toHunt = m.handedOn id g .hunt none :=
  Line.toHunt_running (l := m.handOn id (isBad g.check g.flags) g.flags.cut) moving

theorem Line.handOn_toDiscard {m : Line} (moving : m.state ≠ .stopping) (id : Nat) (g : Frame) {left : Option Nat}
    (hl : left ≠ some 0) :
    (m.handOn id (isBad g.check g.flags) g.flags.cut).toDiscard left = m.handedOn id g .discarding left :=
  Line.toDiscard_running (l := m.handOn id (isBad g.check g.flags) g.flags.cut) moving hl

theorem Line.handedOn_awaiting_le {m : Line} (few : m.awaiting.length ≤ 1) (id : Nat) (g : Frame) (r : Reception)
    (left : Option Nat) : (m.handedOn id g r left).awaiting.length ≤ 2 := by
  simp only [Line.handedOn, List.length_append, List.length_singleton]
  omega

section
variable (s : State) (i : Fin 8) (c : Capture) (m : Line) {cur : CurrentFrame} {id : Nat} {f : Frame}

/-- A stored frame with a byte is completed in its slot, and its line hands it on. -/
theorem State.endFrame_stored (taking : cur.taking = .stored) (slot : cur.slot = some id)
    (frame : c.frame? id = some f) (last : Stamp) (cut broken : Bool) :
    (s.lineAt i c m).endFrame i cur last cut broken
      = s.lineAt i (c.holding id (f.ended m cur last cut broken (c.frameBytes f)))
          (m.handOn id (isBad (f.ended m cur last cut broken (c.frameBytes f)).check
            (f.ended m cur last cut broken (c.frameBytes f)).flags) cut) := by
  unfold State.endFrame
  simp only [taking, slot, State.lineAt_capture, frame, State.lineAt_same, State.lineAt_setCapture,
    State.lineAt_modLine]
  rfl

/-- Any other frame is counted when it is followed, and no frame when it is stored (R5, R9). -/
theorem State.endToHunt_unheld (running : m.Running) (bare : cur.taking = .stored → cur.slot = none) (last : Stamp)
    (broken : Bool) :
    (s.lineAt i c m).endToHunt i cur last broken = s.lineAt i c (m.unheld cur) := by
  have moving := running.ne_stopping
  unfold State.endToHunt State.endFrame
  cases taking : cur.taking with
  | stored =>
    simp only [bare taking, State.lineAt_modLine, Line.toHunt_running moving]
    simp [Line.unheld, taking]
  | followedLost =>
    simp only [State.lineAt_modLine]
    by_cases empty : cur.count = 0
    · simp [Line.countFollowed, Line.unheld, taking, empty, Line.toHunt_running moving]
    · rw [Line.toHunt_running (by simpa [Line.countFollowed, taking, empty] using moving)]
      simp [Line.countFollowed, Line.unheld, taking, empty]
  | followedShed =>
    simp only [State.lineAt_modLine]
    by_cases empty : cur.count = 0
    · simp [Line.countFollowed, Line.unheld, taking, empty, Line.toHunt_running moving]
    · rw [Line.toHunt_running (by simpa [Line.countFollowed, taking, empty] using moving)]
      simp [Line.countFollowed, Line.unheld, taking, empty]

/-- A stored frame that ends into HUNT (R8, R10). -/
theorem State.endToHunt_stored (moving : m.state ≠ .stopping) (taking : cur.taking = .stored)
    (slot : cur.slot = some id) (frame : c.frame? id = some f) (last : Stamp) (broken : Bool) :
    (s.lineAt i c m).endToHunt i cur last broken
      = s.lineAt i (c.holding id (f.ended m cur last false broken (c.frameBytes f)))
          (m.handedOn id (f.ended m cur last false broken (c.frameBytes f)) .hunt none) := by
  unfold State.endToHunt
  rw [State.endFrame_stored s i c m taking slot frame, State.lineAt_modLine]
  exact congrArg _ (Line.handOn_toHunt moving id _)

/-- A stored frame that is cut, into DISCARDING with what is left to pass (R10, R11). -/
theorem State.cut_stored (moving : m.state ≠ .stopping) (taking : cur.taking = .stored)
    (slot : cur.slot = some id) (frame : c.frame? id = some f) (last : Stamp) {left : Option Nat}
    (some_left : left ≠ some 0) :
    ((s.lineAt i c m).endFrame i cur last true false).modLine i (Line.toDiscard left)
      = s.lineAt i (c.holding id (f.ended m cur last true false (c.frameBytes f)))
          (m.handedOn id (f.ended m cur last true false (c.frameBytes f)) .discarding left) := by
  rw [State.endFrame_stored s i c m taking slot frame, State.lineAt_modLine]
  exact congrArg _ (Line.handOn_toDiscard moving id _ some_left)

/-- With nothing left to pass, into HUNT (log 14). -/
theorem State.cut_stored_passed (moving : m.state ≠ .stopping) (taking : cur.taking = .stored)
    (slot : cur.slot = some id) (frame : c.frame? id = some f) (last : Stamp) :
    ((s.lineAt i c m).endFrame i cur last true false).modLine i (Line.toDiscard (some 0))
      = s.lineAt i (c.holding id (f.ended m cur last true false (c.frameBytes f)))
          (m.handedOn id (f.ended m cur last true false (c.frameBytes f)) .hunt none) := by
  have passed : ∀ l : Line, l.toDiscard (some 0) = l.toHunt := fun l => if_pos rfl
  rw [State.endFrame_stored s i c m taking slot frame, State.lineAt_modLine, passed]
  exact congrArg _ (Line.handOn_toHunt moving id _)

end

/-! ### The pages that bytes take (R26, R27) -/

theorem Capture.grantPage_head {c : Capture} {page : Nat} {rest : List Nat} (h : c.free = page :: rest)
    (lines : Vector Line 8) : c.grantPage lines = some (page, { c with free := rest }) := by
  simp [Capture.grantPage, h]

theorem Capture.storeFirst_granted {c d : Capture} {page : Nat} (lines : Vector Line 8)
    (h : c.grantPage lines = some (page, d)) (i : Fin 8) (b : Byte) :
    c.storeFirst lines i b = some (lowestFree 0 d.slots,
      { d with slots := insertKey (lowestFree 0 d.slots) (.begun i page) d.slots, mem := d.mem.write (page * 64) b }) := by
  simp only [Capture.storeFirst, h]
  rfl

theorem Capture.storeNext_within {c : Capture} {id : Nat} {f : Frame} (lines : Vector Line 8)
    (h : c.frame? id = some f) (g : f.length % 64 ≠ 0) (b : Byte) :
    c.storeNext lines id b = some (c.stored id f b) := by
  simp only [Capture.storeNext, h]
  exact if_neg g

theorem Capture.storeNext_granted {c d : Capture} {id page : Nat} {f : Frame} (lines : Vector Line 8)
    (h : c.frame? id = some f) (g : f.length % 64 = 0) (grant : c.grantPage lines = some (page, d)) (b : Byte) :
    c.storeNext lines id b = some { d with
      slots := insertKey id { f with length := f.length + 1, pages := f.pages ++ [page] } d.slots
      mem := d.mem.write (page * 64) b } := by
  simp only [Capture.storeNext, h, grant]
  exact if_pos g

theorem Capture.storeNext_refused {c : Capture} {id : Nat} {f : Frame} (lines : Vector Line 8)
    (h : c.frame? id = some f) (g : f.length % 64 = 0) (grant : c.grantPage lines = none) (b : Byte) :
    c.storeNext lines id b = none := by
  simp only [Capture.storeNext, h, grant]
  exact if_pos g

/-- Pool pressure keeps its value at a claim that leaves it by the evaluation (R43). -/
theorem Capture.calmSince_of_evaluation {old c : Capture} (pressure : c.pressure = old.pressure)
    (h : pressureAfter old.pressure c.free.length c.lowMark = old.pressure) : Capture.CalmSince old c := by
  refine ⟨pressure, ?_⟩
  unfold Capture.pressureSince
  split
  · exact pressure
  · rw [pressure]; exact h

/-- Where a byte goes in the terms of statements is where the model stores it, and pool pressure stays. -/
theorem State.byteGoes_claims {s : State} {i : Fin 8} {cur : CurrentFrame} {b : Byte} {id : Nat} {d : Capture}
    (h : s.byteGoes i cur.slot b = some (id, d)) (m : Line) :
    (s.lineAt i s.capture m).claimByte i cur b = some (id, d) ∧ Capture.CalmSince s.capture d := by
  unfold State.claimByte
  unfold State.byteGoes at h
  cases slot : cur.slot with
  | none =>
    simp only [slot] at h ⊢
    split at h
    next page rest free =>
      split at h
      next stays =>
        obtain ⟨rfl, rfl⟩ := Prod.mk.inj (Option.some.inj h)
        exact ⟨Capture.storeFirst_granted _ (Capture.grantPage_head free _) i b,
          Capture.calmSince_of_evaluation rfl stays⟩
      next => exact (Option.some_ne_none _ h.symm).elim
    next => exact (Option.some_ne_none _ h.symm).elim
  | some k =>
    simp only [slot] at h ⊢
    split at h
    next => exact (Option.some_ne_none _ h.symm).elim
    next f frame =>
      split at h
      next full =>
        split at h
        next page rest free =>
          split at h
          next stays =>
            obtain ⟨rfl, rfl⟩ := Prod.mk.inj (Option.some.inj h)
            refine ⟨?_, Capture.calmSince_of_evaluation rfl stays⟩
            rw [State.lineAt_capture, Capture.storeNext_granted _ frame full (Capture.grantPage_head free _)]
            rfl
          next => exact (Option.some_ne_none _ h.symm).elim
        next => exact (Option.some_ne_none _ h.symm).elim
      next within =>
        obtain ⟨rfl, rfl⟩ := Prod.mk.inj (Option.some.inj h)
        refine ⟨?_, Capture.calmSince_of_free rfl rfl⟩
        rw [State.lineAt_capture, Capture.storeNext_within _ frame within]
        rfl

/-! ### A byte of the frame in reception (R5, R6, R11) -/

section
variable (s : State) (i : Fin 8) (c : Capture) (m : Line) {cur : CurrentFrame} (b : Byte) (errored : Bool)

theorem State.frameByte_followed (taking : cur.taking ≠ .stored) :
    (s.lineAt i c m).frameByte i cur b errored
      = (s.lineAt i c { m with current := some (cur.more s.time.elapsed none errored) }, true) := by
  unfold State.frameByte
  simp only [taking, ne_eq, not_false_eq_true, if_true, State.lineAt_setCurrent]
  rfl

theorem State.frameByte_stored (taking : cur.taking = .stored) (room : cur.count < m.cfg.maxLength) {id : Nat}
    {d : Capture} (claim : (s.lineAt i c m).claimByte i cur b = some (id, d)) :
    (s.lineAt i c m).frameByte i cur b errored
      = (s.lineAt i d { m with current := some (cur.more s.time.elapsed (some id) errored) }, true) := by
  unfold State.frameByte
  simp only [taking, ne_eq, not_true_eq_false, if_false, State.lineAt_same, Nat.not_le.mpr room, claim,
    State.lineAt_setCapture, State.lineAt_setCurrent]
  rfl

/-- A byte beyond the maximum frame length cuts the frame (R11). -/
theorem State.frameByte_full (moving : m.state ≠ .stopping) (taking : cur.taking = .stored)
    (full : m.cfg.maxLength ≤ cur.count) {id : Nat} {f : Frame} (slot : cur.slot = some id)
    (frame : c.frame? id = some f) :
    (s.lineAt i c m).frameByte i cur b errored
      = (s.lineAt i (c.holding id (f.ended m cur cur.storedAt true false (c.frameBytes f)))
          (m.handedOn id (f.ended m cur cur.storedAt true false (c.frameBytes f)) .discarding none), false) := by
  unfold State.frameByte
  simp only [taking, ne_eq, not_true_eq_false, if_false, State.lineAt_same, full, if_true]
  rw [State.cut_stored s i c m moving taking slot frame cur.storedAt (Option.some_ne_none 0).symm]

/-- Without a page for its byte the frame is abandoned (R6, R41). -/
theorem State.frameByte_refused (taking : cur.taking = .stored) (room : cur.count < m.cfg.maxLength)
    (claim : (s.lineAt i c m).claimByte i cur b = none) :
    (s.lineAt i c m).frameByte i cur b errored = ((s.lineAt i c m).abandonFrame i cur, false) := by
  unfold State.frameByte
  simp only [taking, ne_eq, not_true_eq_false, if_false, State.lineAt_same, Nat.not_le.mpr room, claim]

end

/-! ### The frame that a character belongs to (R7, R10) -/

/-- The frame in reception of a line, or the one that a character begins on it in HUNT. -/
def Line.frameFor (l : Line) (t : Timebase) : Option CurrentFrame :=
  match l.reception with
  | .hunt => some (l.fresh t)
  | .receiving => l.current
  | .discarding => none

theorem Line.frameFor_hunt {l : Line} (h : l.reception = .hunt) (t : Timebase) : l.frameFor t = some (l.fresh t) := by
  unfold Line.frameFor
  rw [h]

/-- A frame that begins in ACTIVE is stored (R5). -/
theorem Line.fresh_active {l : Line} (h : l.state = .active) (t : Timebase) : (l.fresh t).taking = .stored := by
  simp only [Line.fresh, h]

/-- The line with that frame in reception. -/
def Line.entered (l : Line) (t : Timebase) : Line := if l.reception = .hunt then l.begun t else l

theorem Line.entered_cfg (l : Line) (t : Timebase) : (l.entered t).cfg = l.cfg := by
  unfold Line.entered; split <;> rfl

theorem Line.entered_hunt {l : Line} (h : l.reception = .hunt) (t : Timebase) : l.entered t = l.begun t := if_pos h

section
variable {a : Line} {t : Timebase} {cur : CurrentFrame}

theorem Line.entered_receives (h : a.frameFor t = some cur) :
    (a.entered t).reception = .receiving ∧ (a.entered t).current = some cur := by
  unfold Line.frameFor at h
  unfold Line.entered
  split at h
  next hunt => rw [if_pos hunt]; exact ⟨rfl, h⟩
  next receiving => rw [if_neg (receiving ▸ Reception.noConfusion)]; exact ⟨receiving, h⟩
  next => exact (Option.some_ne_none _ h.symm).elim

theorem Line.frameFor_ne_discarding (h : a.frameFor t = some cur) : a.reception ≠ .discarding := by
  intro discarding
  unfold Line.frameFor at h
  rw [discarding] at h
  exact Option.some_ne_none _ h.symm

theorem Line.frameFor_receiving (h : a.reception = .receiving) (current : a.current = some cur) :
    a.frameFor t = some cur := by
  unfold Line.frameFor
  rw [h]
  exact current

theorem Line.entered_receiving (h : a.reception = .receiving) : a.entered t = a :=
  if_neg (h ▸ Reception.noConfusion)

/-- With its frame grown it is the line that statements call inside. -/
theorem Line.entered_inside (h : a.frameFor t = some cur) (next : CurrentFrame) :
    { a.entered t with current := some next } = a.inside next := by
  have here := Line.frameFor_ne_discarding h
  unfold Line.entered
  by_cases hunt : a.reception = .hunt
  · rw [if_pos hunt]
    simp only [Line.inside, hunt, if_true]
    rfl
  · have receiving : a.reception = .receiving := by cases e : a.reception <;> simp_all
    rw [if_neg hunt, Line.inside_receiving a next receiving]

end

/-- A frame begins at a character in HUNT (R7, R10). -/
theorem State.lineAt_enters (s : State) (i : Fin 8) (c : Capture) {a : Line} (running : a.Running) :
    (if a.reception = .hunt then s.lineAt i c (a.begin s.time) else s.lineAt i c a)
      = s.lineAt i c (a.entered s.time) := by
  unfold Line.entered
  rw [running.begin_eq]
  split <;> rfl

/-! ### GAP mode (R7) -/

theorem State.gapCharacter_inFrame (s : State) (i : Fin 8) (c : Capture) {a : Line} (running : a.Running)
    {cur : CurrentFrame} (h : a.frameFor s.time = some cur) (b : Byte) (errored : Bool) :
    (s.lineAt i c a).gapCharacter i b errored = ((s.lineAt i c (a.entered s.time)).frameByte i cur b errored).1 := by
  obtain ⟨receiving, current⟩ := Line.entered_receives h
  unfold State.gapCharacter
  simp only [State.lineAt_same, State.lineAt_modLine, State.lineAt_time, s.lineAt_enters i c running, receiving, current]

/-- A GAP line stores the byte of a frame that finds its place (R7). -/
theorem State.character_gap_stored {s : State} {i : Fin 8} {a : Line} {cur : CurrentFrame} {b : Byte} {id : Nat}
    {d : Capture} (errored : Bool) (gap : a.cfg.mode = .gap) (running : a.Running)
    (frame : a.frameFor s.time = some cur) (taking : cur.taking = .stored) (room : cur.count < a.cfg.maxLength)
    (claim : (s.lineAt i s.capture (a.entered s.time)).claimByte i cur b = some (id, d)) :
    (s.lineAt i s.capture a).character i b errored
      = s.lineAt i d (a.inside (cur.more s.time.elapsed (some id) errored)) := by
  rw [s.character_gap i s.capture a b errored gap, s.gapCharacter_inFrame i s.capture running frame b errored,
    State.frameByte_stored s i s.capture (a.entered s.time) b errored taking (by rw [Line.entered_cfg]; exact room)
      claim,
    Line.entered_inside frame]

/-! ### The idle time inside a frame (R7, R8, R10) -/

theorem State.idleExpires_inside (s : State) (i : Fin 8) {cur : CurrentFrame}
    (receiving : s.lines[i].reception = .receiving)
    (current : s.lines[i].current = some cur) {c : Capture} {m : Line}
    (ends : (s.lineAt i s.capture s.lines[i].idled).endToHunt i cur cur.lastAt (s.lines[i].cfg.mode != .gap)
      = s.lineAt i c m) (moving : m.state ≠ .stopping) :
    State.idleExpires i s = State.conclude s (s.lineAt i c m) := by
  unfold State.idleExpires
  simp only [receiving, current]
  exact (congrArg (State.endLineEvent s · i) ends).trans (s.endLineEvent_lineAt i c m moving)

/-- Settles O27: the bytes of a GAP frame, the idle time on a stored frame and on one without a slot, and the cut. -/
theorem gapFramesBeginAndIdleTimeEndsFrames : Obligations.GapFramesBeginAndIdleTimeEndsFrames := by
  refine ⟨?_, ?_, ?_, ?_⟩
  · intro i bits parityBit stopHigh s cur l value errored a sampling mode frame
    have running : a.Running := sampling.1
    have frame : a.frameFor s.time = some cur := frame
    refine ⟨fun id c taking room goes => ?_, fun taking => ?_⟩
    · obtain ⟨claim, calm⟩ := State.byteGoes_claims goes (a.entered s.time)
      have run := State.character_gap_stored (s := s) (i := i) (a := a) errored mode running frame taking room claim
      exact characterCompletion_leaves sampling rfl rfl run rfl sampling.2.2 calm
    · have run := (s.character_gap i s.capture a value errored mode).trans
        (s.gapCharacter_inFrame i s.capture running frame value errored)
      rw [State.frameByte_followed s i _ _ _ _ taking, Line.entered_inside frame] at run
      exact characterCompletion_leaves sampling rfl rfl run rfl sampling.2.2 s.capture.calmSince_refl
  · intro i s v cur id f l g running idle outside few receiving current taking slot frame
    have moving : l.state ≠ .stopping := Line.Running.ne_stopping running
    have ends := State.endToHunt_stored (s.advanceTo (l.idlePoint v)) i s.capture l.idled moving taking slot frame
      cur.lastAt (l.cfg.mode != .gap)
    have event := State.idleExpires_inside (s.advanceTo (l.idlePoint v)) i receiving current ends moving
    have leaves := idleTimerExpiry_leaves running idle outside event rfl
      (Line.handedOn_awaiting_le few id g .hunt none)
      (s.capture.holding_calm id g)
    exact ⟨_, leaves, rfl, rfl, rfl, rfl, rfl, rfl, rfl⟩
  · intro i s v cur l running idle outside few receiving current bare
    have moving : l.state ≠ .stopping := Line.Running.ne_stopping running
    have ends := State.endToHunt_unheld (s.advanceTo (l.idlePoint v)) i s.capture l.idled running bare
      cur.lastAt (l.cfg.mode != .gap)
    have event := State.idleExpires_inside (s.advanceTo (l.idlePoint v)) i receiving current ends moving
    exact idleTimerExpiry_leaves running idle outside event rfl few s.capture.calmSince_refl
  · intro i bits parityBit stopHigh s cur id f l errored g receives full
    obtain ⟨⟨sampling, mode, receiving, current⟩, taking, slot, frame⟩ := receives
    let a := l.charDone s.time.elapsed errored stopHigh
    have running : a.Running := sampling.1
    have receives : a.reception = .receiving := receiving
    have few : l.awaiting.length ≤ 1 := sampling.2.2
    have run := (s.character_gap i s.capture a (charValue l.cfg.sevenBits bits) errored mode).trans
      (s.gapCharacter_inFrame i s.capture running (Line.frameFor_receiving receives current) _ errored)
    rw [Line.entered_receiving receives,
      State.frameByte_full s i s.capture a _ _ running.ne_stopping taking full slot frame] at run
    exact characterCompletion_leaves sampling rfl rfl run rfl
      (Line.handedOn_awaiting_le few id g .discarding none) (s.capture.holding_calm id g)

end Sys2Proof.Machine
end

section
/-! PROOFS. The bytes of MARKED and COUNTED frames (R8 to R11). -/

namespace Sys2Proof.Machine

/-! ### MARKED mode (R8) -/

theorem Line.Running.handedOn {a : Line} (h : a.Running) (id : Nat) (g : Frame) (r : Reception) (left : Option Nat) :
    (a.handedOn id g r left).Running := h

theorem Line.Running.unheld {a : Line} (h : a.Running) (cur : CurrentFrame) : (a.unheld cur).Running := h

section
variable (s : State) (i : Fin 8) (c : Capture) (a : Line) (cur : CurrentFrame) (b : Byte) (errored : Bool)

theorem State.markedCharacter_inside (receiving : a.reception = .receiving) (current : a.current = some cur) :
    (s.lineAt i c a).markedCharacter i b errored = (s.lineAt i c a).markedInside i cur b errored := by
  unfold State.markedCharacter
  simp only [State.lineAt_same, receiving, current]

/-- An error-free end byte ends the frame. -/
theorem State.markedInside_end (unescaped : a.escape = false) (clean : errored = false) (ends : b = a.cfg.endByte) :
    (s.lineAt i c a).markedInside i cur b errored = (s.lineAt i c a).endToHunt i cur s.time.elapsed false := by
  unfold State.markedInside
  simp only [State.lineAt_same, unescaped, clean, ends, Bool.false_eq_true, if_false, if_true, State.lineAt_time]

/-- An error-free start byte ends it BROKEN and begins another. -/
theorem State.markedInside_start (unescaped : a.escape = false) (clean : errored = false) (ends : b ≠ a.cfg.endByte)
    (start : b = a.cfg.startByte) :
    (s.lineAt i c a).markedInside i cur b errored
      = ((s.lineAt i c a).endToHunt i cur cur.lastAt true).modLine i (Line.begin s.time) := by
  unfold State.markedInside
  simp only [State.lineAt_same, unescaped, clean, ends, ← start, Bool.false_eq_true, if_false, if_true, State.lineAt_time]

/-- An error-free escape byte waits for the next byte. -/
theorem State.markedInside_escape (unescaped : a.escape = false) (clean : errored = false) (ends : b ≠ a.cfg.endByte)
    (start : b ≠ a.cfg.startByte) (escapes : b = a.cfg.escapeByte) :
    (s.lineAt i c a).markedInside i cur b errored
      = s.lineAt i c { a with escape := true, current := some { cur with lastAt := s.time.elapsed } } := by
  unfold State.markedInside
  simp only [State.lineAt_same, unescaped, clean, ends, start, ← escapes, Bool.false_eq_true, if_false, if_true,
    State.lineAt_modLine, State.lineAt_time]

/-- Any other byte is one of the frame, an escaped one with bit 5 inverted. -/
theorem State.markedInside_data
    (data : ¬ ((a.escape = false ∧ errored = false)
      ∧ (b = a.cfg.endByte ∨ b = a.cfg.startByte ∨ b = a.cfg.escapeByte))) :
    (s.lineAt i c a).markedInside i cur b errored
      = ((s.lineAt i c { a with escape := false }).frameByte i cur (if a.escape = true then b ^^^ 0x20#8 else b)
          errored).1 := by
  unfold State.markedInside
  simp only [State.lineAt_same]
  cases escape : a.escape with
  | true => simp only [if_true, State.lineAt_modLine]
  | false =>
    have same : { a with escape := false } = a := by rw [← escape]
    cases clean : errored with
    | true => simp only [Bool.false_eq_true, if_false, if_true, same]
    | false =>
      obtain ⟨ends, start, escapes⟩ : b ≠ a.cfg.endByte ∧ b ≠ a.cfg.startByte ∧ b ≠ a.cfg.escapeByte := by
        simpa [escape, clean] using data
      simp only [Bool.false_eq_true, if_false, ends, start, escapes, same]

end

/-- Settles O28: each marker, then the data bytes, by how the frame is taken. -/
theorem markedFramesFollowTheirMarkers : Obligations.MarkedFramesFollowTheirMarkers := by
  intro i bits parityBit stopHigh s cur l value errored now a marker ends restarts escapes data byte leaves inFrame
  obtain ⟨sampling, mode, receiving, current⟩ := inFrame
  have running : a.Running := sampling.1
  have moving := running.ne_stopping
  have few : a.awaiting.length ≤ 1 := sampling.2.2
  have few2 : a.awaiting.length ≤ 2 := by omega
  have inside : (s.lineAt i s.capture a).character i value errored
      = (s.lineAt i s.capture a).markedInside i cur value errored :=
    (s.character_marked i s.capture a value errored mode).trans
      (s.markedCharacter_inside i s.capture a cur value errored receiving current)
  have go : ∀ c m, (s.lineAt i s.capture a).markedInside i cur value errored = s.lineAt i c m →
      m.state = l.state → m.awaiting.length ≤ 2 → Capture.CalmSince s.capture c → leaves c m :=
    fun c m run state hw calm => characterCompletion_leaves sampling rfl rfl (inside.trans run) state hw calm
  have dataByte : data → (s.lineAt i s.capture a).markedInside i cur value errored
      = ((s.lineAt i s.capture { a with escape := false }).frameByte i cur byte errored).1 :=
    s.markedInside_data i s.capture a cur value errored
  refine ⟨fun id f taking slot frame => ?_, fun bare => ?_, fun h => ?_, fun id c h taking room goes => ?_,
    fun h taking => ?_⟩
  · intro bytes whole broken cut holds
    have handed := fun (g : Frame) (r : Reception) => Line.handedOn_awaiting_le few id g r none
    refine ⟨fun h => ?_, fun h => ?_, fun h full => ?_⟩
    · have run := s.markedInside_end i s.capture a cur value errored h.1.1 h.1.2 h.2
      rw [State.endToHunt_stored s i s.capture a moving taking slot frame] at run
      exact go _ _ run rfl (handed whole .hunt) (s.capture.holding_calm id whole)
    · have run := s.markedInside_start i s.capture a cur value errored h.1.1 h.1.2 h.2.1 h.2.2
      rw [State.endToHunt_stored s i s.capture a moving taking slot frame, State.lineAt_modLine,
        (running.handedOn id _ .hunt none).begin_eq] at run
      exact go _ _ run rfl (handed broken .hunt) (s.capture.holding_calm id broken)
    · have run := dataByte h
      rw [State.frameByte_full s i s.capture { a with escape := false } _ errored moving taking full slot frame] at run
      exact go _ _ run rfl (handed cut .discarding) (s.capture.holding_calm id cut)
  · refine ⟨fun h => ?_, fun h => ?_⟩
    · have run := s.markedInside_end i s.capture a cur value errored h.1.1 h.1.2 h.2
      rw [State.endToHunt_unheld s i s.capture a running bare] at run
      exact go _ _ run rfl few2 s.capture.calmSince_refl
    · have run := s.markedInside_start i s.capture a cur value errored h.1.1 h.1.2 h.2.1 h.2.2
      rw [State.endToHunt_unheld s i s.capture a running bare, State.lineAt_modLine,
        (running.unheld cur).begin_eq] at run
      exact go _ _ run rfl few2 s.capture.calmSince_refl
  · have run := s.markedInside_escape i s.capture a cur value errored h.1.1 h.1.2 h.2.1 h.2.2.1 h.2.2.2
    exact go _ _ run rfl few2 s.capture.calmSince_refl
  · have run := dataByte h
    obtain ⟨claim, calm⟩ := State.byteGoes_claims goes { a with escape := false }
    rw [State.frameByte_stored s i s.capture { a with escape := false } _ errored taking room claim] at run
    exact go _ _ run rfl few2 calm
  · have run := dataByte h
    rw [State.frameByte_followed s i s.capture { a with escape := false } _ errored taking] at run
    exact go _ _ run rfl few2 s.capture.calmSince_refl

/-! ### COUNTED mode (R10, R11) -/

/-- The total length is known from the byte at the length offset on (R10). -/
theorem Line.totalWith_eq (l : Line) (cur : CurrentFrame) (b : Byte) :
    l.totalWith cur b = { cur with
      total := if cur.count = l.cfg.lenOffset.toNat then some (b.toNat + l.cfg.addend.toNat) else cur.total } := by
  unfold Line.totalWith
  split <;> rfl

section
variable (s : State) (i : Fin 8) (c : Capture) {a : Line} {cur : CurrentFrame} (b : Byte) (errored : Bool)

theorem State.countedCharacter_inFrame (running : a.Running) (h : a.frameFor s.time = some cur) :
    (s.lineAt i c a).countedCharacter i b errored = (s.lineAt i c (a.entered s.time)).countedByte i cur b errored := by
  obtain ⟨receiving, current⟩ := Line.entered_receives h
  unfold State.countedCharacter
  simp only [State.lineAt_same, Line.frameFor_ne_discarding h, if_false, State.lineAt_modLine, State.lineAt_time,
    s.lineAt_enters i c running, receiving, current]

/-- A byte of a stored frame that finds its place, and what the count then says. -/
theorem State.countedByte_stored (h : a.frameFor s.time = some cur) (total : Option Nat)
    (ht : (a.entered s.time).totalWith cur b = { cur with total := total }) (taking : cur.taking = .stored)
    (room : cur.count < a.cfg.maxLength) {id : Nat} {d : Capture}
    (claim : (s.lineAt i c (a.entered s.time)).claimByte i { cur with total := total } b = some (id, d)) :
    (s.lineAt i c (a.entered s.time)).countedByte i cur b errored
      = (s.lineAt i d (a.inside
            (({ cur with total := total } : CurrentFrame).more s.time.elapsed (some id) errored))).countedEnd i
          (({ cur with total := total } : CurrentFrame).more s.time.elapsed (some id) errored) := by
  have stored := State.frameByte_stored s i c (a.entered s.time) b errored (cur := { cur with total := total }) taking
    (by rw [Line.entered_cfg]; exact room) claim
  unfold State.countedByte
  simp only [State.lineAt_same, ht, stored, Line.entered_inside h]
  rfl

/-- A byte of a followed frame. -/
theorem State.countedByte_followed (h : a.frameFor s.time = some cur) (total : Option Nat)
    (ht : (a.entered s.time).totalWith cur b = { cur with total := total }) (taking : cur.taking ≠ .stored) :
    (s.lineAt i c (a.entered s.time)).countedByte i cur b errored
      = (s.lineAt i c (a.inside
            (({ cur with total := total } : CurrentFrame).more s.time.elapsed none errored))).countedEnd i
          (({ cur with total := total } : CurrentFrame).more s.time.elapsed none errored) := by
  have followed := State.frameByte_followed s i c (a.entered s.time) b errored (cur := { cur with total := total }) taking
  unfold State.countedByte
  simp only [State.lineAt_same, ht, followed, Line.entered_inside h]
  rfl

end

/-! What the count says after a byte (R10, R11). -/

section
variable (s : State) (i : Fin 8) (c : Capture) (m : Line) {next : CurrentFrame} {n : Nat}

theorem State.countedEnd_unknown (h : next.total = none) : (s.lineAt i c m).countedEnd i next = s.lineAt i c m := by
  unfold State.countedEnd
  simp only [h]

theorem State.countedEnd_short (h : next.total = some n) (short : n ≤ m.cfg.lenOffset.toNat) :
    (s.lineAt i c m).countedEnd i next = (s.lineAt i c m).endToHunt i next s.time.elapsed true := by
  unfold State.countedEnd
  simp only [h, State.lineAt_same, short, if_true, State.lineAt_time]

theorem State.countedEnd_whole (h : next.total = some n) (long : m.cfg.lenOffset.toNat < n) (whole : n = next.count) :
    (s.lineAt i c m).countedEnd i next = (s.lineAt i c m).endToHunt i next s.time.elapsed false := by
  unfold State.countedEnd
  simp only [h, State.lineAt_same]
  rw [if_neg (Nat.not_le.mpr long), if_pos whole, State.lineAt_time]

theorem State.countedEnd_full (h : next.total = some n) (long : m.cfg.lenOffset.toNat < n) (part : n ≠ next.count)
    (taking : next.taking = .stored) (full : next.count = m.cfg.maxLength) :
    (s.lineAt i c m).countedEnd i next
      = ((s.lineAt i c m).endFrame i next s.time.elapsed true false).modLine i
          (Line.toDiscard (some (n - next.count))) := by
  unfold State.countedEnd
  simp only [h, State.lineAt_same]
  rw [if_neg (Nat.not_le.mpr long), if_neg part, if_pos ⟨taking, full⟩, State.lineAt_time]

theorem State.countedEnd_on (h : next.total = some n) (long : m.cfg.lenOffset.toNat < n) (part : n ≠ next.count)
    (room : ¬ (next.taking = .stored ∧ next.count = m.cfg.maxLength)) :
    (s.lineAt i c m).countedEnd i next = s.lineAt i c m := by
  unfold State.countedEnd
  simp only [h, State.lineAt_same]
  rw [if_neg (Nat.not_le.mpr long), if_neg part, if_neg room]

end

/-- Settles O29: a stored frame by where its byte goes and what the count says, a followed one by the count. -/
theorem countedFramesFollowTheirLength : Obligations.CountedFramesFollowTheirLength := by
  intro i bits parityBit stopHigh s cur l value errored now a total leaves sampling mode frame
  have running : a.Running := sampling.1
  have moving := running.ne_stopping
  have few : a.awaiting.length ≤ 1 := sampling.2.2
  have few2 : a.awaiting.length ≤ 2 := by omega
  have frame : a.frameFor s.time = some cur := frame
  have known : (a.entered s.time).totalWith cur value = { cur with total := total } := by
    rw [Line.totalWith_eq, Line.entered_cfg]
    rfl
  have byte : (s.lineAt i s.capture a).character i value errored
      = (s.lineAt i s.capture (a.entered s.time)).countedByte i cur value errored :=
    (s.character_counted i s.capture a value errored mode).trans
      (s.countedCharacter_inFrame i s.capture value errored running frame)
  have go : ∀ c m, (s.lineAt i s.capture (a.entered s.time)).countedByte i cur value errored = s.lineAt i c m →
      m.state = l.state → m.awaiting.length ≤ 2 → Capture.CalmSince s.capture c → leaves c m :=
    fun c m run state hw calm => characterCompletion_leaves sampling rfl rfl (byte.trans run) state hw calm
  refine ⟨fun id c f taking room goes slotted => ?_, fun taking => ?_⟩
  · intro next ending reach
    obtain ⟨claim, calm⟩ := State.byteGoes_claims (cur := { cur with total := total }) goes (a.entered s.time)
    have stored := s.countedByte_stored i s.capture value errored frame total known taking room claim
    have handed := fun (g : Frame) (r : Reception) (left : Option Nat) => Line.handedOn_awaiting_le few id g r left
    refine ⟨fun unknown => ?_, fun n hn => ⟨fun short => ?_, fun long whole => ?_, fun long more full => ?_,
      fun long passed full => ?_, fun long part notFull => ?_⟩⟩
    · exact go _ _ (stored.trans (s.countedEnd_unknown i c _ unknown)) rfl few2 calm
    · have run := (stored.trans (s.countedEnd_short i c (a.inside next) hn short)).trans
        (State.endToHunt_stored s i c (a.inside next) (cur := next) moving taking rfl slotted now true)
      exact go _ _ run rfl (handed (ending false true) .hunt none) (calm.holding id (ending false true))
    · have run := (stored.trans (s.countedEnd_whole i c (a.inside next) hn long whole)).trans
        (State.endToHunt_stored s i c (a.inside next) (cur := next) moving taking rfl slotted now false)
      exact go _ _ run rfl (handed (ending false false) .hunt none) (calm.holding id (ending false false))
    · have left : some (n - (cur.count + 1)) ≠ some 0 := fun h => by have := Option.some.inj h; omega
      have run := (stored.trans (s.countedEnd_full i c (a.inside next) hn long (Nat.ne_of_gt more) taking full)).trans
        (State.cut_stored s i c (a.inside next) (cur := next) moving taking rfl slotted now left)
      exact go _ _ run rfl (handed (ending true false) .discarding _) (calm.holding id (ending true false))
    · have left : n - next.count = 0 := Nat.sub_eq_zero_of_le passed.le
      have run := stored.trans (s.countedEnd_full i c (a.inside next) hn long (Nat.ne_of_lt passed) taking full)
      rw [left] at run
      exact go _ _ (run.trans (State.cut_stored_passed s i c (a.inside next) (cur := next) moving taking rfl slotted now))
        rfl (handed (ending true false) .hunt none) (calm.holding id (ending true false))
    · have room : ¬ (next.taking = .stored ∧ next.count = (a.inside next).cfg.maxLength) := fun h => notFull h.2
      exact go _ _ (stored.trans (s.countedEnd_on i c (a.inside next) hn long part room)) rfl few2 calm
  · intro next
    have followed := s.countedByte_followed i s.capture value errored frame total known taking
    have calm := s.capture.calmSince_refl
    have bare : next.taking = .stored → next.slot = none := fun h => absurd h taking
    refine ⟨fun unknown => ?_, fun n hn => ⟨fun done => ?_, fun long part => ?_⟩⟩
    · exact go _ _ (followed.trans (s.countedEnd_unknown i s.capture _ unknown)) rfl few2 calm
    · have ended : ∃ broken, (s.lineAt i s.capture (a.inside next)).countedEnd i next
          = (s.lineAt i s.capture (a.inside next)).endToHunt i next s.time.elapsed broken := by
        by_cases short : n ≤ l.cfg.lenOffset.toNat
        · exact ⟨true, s.countedEnd_short i s.capture _ hn short⟩
        · exact ⟨false, s.countedEnd_whole i s.capture _ hn (Nat.not_le.mp short) (done.resolve_left short)⟩
      obtain ⟨broken, ended⟩ := ended
      have run := (followed.trans ended).trans
        (State.endToHunt_unheld s i s.capture (a.inside next) (cur := next) running bare now broken)
      exact go _ _ run rfl few2 calm
    · have room : ¬ (next.taking = .stored ∧ next.count = (a.inside next).cfg.maxLength) := fun h => taking h.1
      exact go _ _ (followed.trans (s.countedEnd_on i s.capture (a.inside next) hn long part room)) rfl few2 calm

end Sys2Proof.Machine
end

section
/-! PROOFS. Page claims on an empty free page list (R39 to R41), and at the low mark (R42, R43). -/

namespace Sys2Proof.Machine

/-! ### The oldest reclaim candidate (R39) -/

theorem oldestOf_eq_none {l : List (Fin 8 × Nat × Stamp)} : oldestOf l = none ↔ l = [] := by
  cases l with
  | nil => exact ⟨fun _ => rfl, fun _ => rfl⟩
  | cons a rest =>
    unfold oldestOf
    split <;> [split; skip] <;> simp

theorem oldestOf_mem {l : List (Fin 8 × Nat × Stamp)} {a : Fin 8 × Nat × Stamp}
    (h : oldestOf l = some a) : a ∈ l := by
  induction l generalizing a with
  | nil => exact (Option.some_ne_none _ h.symm).elim
  | cons b rest ih =>
    unfold oldestOf at h
    split at h
    next o older =>
      split at h
      · exact List.mem_cons_of_mem _ (Option.some.inj h ▸ ih older)
      · exact Option.some.inj h ▸ List.mem_cons_self
    next => exact Option.some.inj h ▸ List.mem_cons_self

theorem oldestOf_le {l : List (Fin 8 × Nat × Stamp)} {a b : Fin 8 × Nat × Stamp} (h : oldestOf l = some a)
    (hb : b ∈ l) : a.2.2 ≤ b.2.2 := by
  induction l generalizing a with
  | nil => exact (List.not_mem_nil hb).elim
  | cons c rest ih =>
    unfold oldestOf at h
    split at h
    next o older =>
      split at h
      next less =>
        obtain rfl := Option.some.inj h
        obtain rfl | later := List.mem_cons.mp hb
        · exact BitVec.le_of_lt less
        · exact ih older later
      next notLess =>
        obtain rfl := Option.some.inj h
        obtain rfl | later := List.mem_cons.mp hb
        · exact BitVec.le_refl _
        · exact BitVec.le_trans (BitVec.not_lt.mp notLess) (ih older later)
    next none_older =>
      obtain rfl := Option.some.inj h
      obtain rfl := oldestOf_eq_none.mp none_older
      obtain rfl := List.mem_singleton.mp hb
      exact BitVec.le_refl _

/-- A frame that a page claim may reclaim: unpinned, in the history of a RING line (R39). -/
def Capture.Candidate (c : Capture) (lines : Vector Line 8) (j : Fin 8) (x : Nat) (g : Frame) : Prop :=
  lines[j].cfg.policy = .ring ∧ x ∈ c.hist[j] ∧ c.frame? x = some g ∧ g.pins = 0

theorem Capture.mem_candidates {c : Capture} {lines : Vector Line 8} {j : Fin 8} {x : Nat} {st : Stamp} :
    (j, x, st) ∈ c.candidates lines ↔ ∃ g, c.Candidate lines j x g ∧ g.start = st := by
  unfold Capture.candidates Capture.Candidate
  simp only [List.mem_flatMap]
  constructor
  · rintro ⟨k, -, member⟩
    split at member
    next ring =>
      obtain ⟨y, placed, found⟩ := List.mem_filterMap.mp member
      split at found
      next g frame =>
        split at found
        next unpinned =>
          obtain ⟨rfl, rfl, rfl⟩ : k = j ∧ y = x ∧ g.start = st := by simpa using found
          exact ⟨g, ⟨ring, placed, frame, unpinned⟩, rfl⟩
        next => exact (Option.some_ne_none _ found.symm).elim
      next => exact (Option.some_ne_none _ found.symm).elim
    next => exact (List.not_mem_nil member).elim
  · rintro ⟨g, ⟨ring, placed, frame, unpinned⟩, rfl⟩
    refine ⟨j, List.mem_finRange j, ?_⟩
    rw [if_pos ring]
    exact List.mem_filterMap.mpr ⟨x, placed, by rw [frame]; exact if_pos unpinned⟩

theorem Capture.candidates_eq_nil {c : Capture} {lines : Vector Line 8} :
    c.candidates lines = [] ↔ ¬ ∃ j x g, c.Candidate lines j x g := by
  rw [List.eq_nil_iff_forall_not_mem]
  constructor
  · rintro h ⟨j, x, g, candidate⟩
    exact h (j, x, g.start) (Capture.mem_candidates.mpr ⟨g, candidate, rfl⟩)
  · rintro h ⟨j, x, st⟩ member
    obtain ⟨g, candidate, -⟩ := Capture.mem_candidates.mp member
    exact h ⟨j, x, g, candidate⟩

/-! ### A page claim on an empty free page list (R40, R41) -/

/-- Capture memory once a frame of a history is out of it and its pages but the first are free. -/
def Capture.reclaimed (c : Capture) (j : Fin 8) (x : Nat) (rest : List Nat) : Capture :=
  { c with hist := c.hist.set j ((c.hist[j]).filter (· != x)), slots := eraseKey x c.slots, free := rest }

theorem Capture.freeFrame_of_frame {c : Capture} {x : Nat} {g : Frame} (frame : c.frame? x = some g) :
    c.freeFrame x = { c with free := c.free ++ g.pages, slots := eraseKey x c.slots } := by
  unfold Capture.freeFrame
  rw [frame]

theorem Capture.reclaim_oldest {c : Capture} {lines : Vector Line 8} {j : Fin 8} {x : Nat} {st : Stamp} {g : Frame}
    (oldest : oldestOf (c.candidates lines) = some (j, x, st)) (frame : c.frame? x = some g) :
    c.reclaim lines = c.reclaimed j x (c.free ++ g.pages) := by
  unfold Capture.reclaim
  rw [oldest]
  exact Capture.freeFrame_of_frame (c := { c with hist := c.hist.set j ((c.hist[j]).filter (· != x)) }) frame

/-- With a candidate the claim takes the first page of the oldest one. -/
theorem Capture.grantPage_reclaims {c : Capture} {lines : Vector Line 8} (empty : c.free = [])
    (held : ∀ x g, c.frame? x = some g → g.pages ≠ []) (some_candidate : ∃ j x g, c.Candidate lines j x g) :
    ∃ j x g page rest, c.Candidate lines j x g ∧ (∀ j' x' g', c.Candidate lines j' x' g' → g.start ≤ g'.start)
      ∧ g.pages = page :: rest ∧ c.grantPage lines = some (page, c.reclaimed j x rest) := by
  obtain ⟨⟨j, x, st⟩, oldest⟩ := Option.ne_none_iff_exists'.mp fun h =>
    Capture.candidates_eq_nil.mp (oldestOf_eq_none.mp h) some_candidate
  obtain ⟨g, candidate, rfl⟩ := Capture.mem_candidates.mp (oldestOf_mem oldest)
  obtain ⟨-, -, frame, -⟩ := id candidate
  obtain ⟨page, rest, pages⟩ := List.exists_cons_of_ne_nil (held x g frame)
  refine ⟨j, x, g, page, rest, candidate, fun j' x' g' other => ?_, pages, ?_⟩
  · exact oldestOf_le oldest (Capture.mem_candidates.mpr ⟨g', other, rfl⟩)
  · simp only [Capture.grantPage, empty, Capture.reclaim_oldest oldest frame, Capture.reclaimed, pages, List.nil_append]

/-- Without one it is refused. -/
theorem Capture.grantPage_refused {c : Capture} {lines : Vector Line 8} (empty : c.free = [])
    (no_candidate : ¬ ∃ j x g, c.Candidate lines j x g) : c.grantPage lines = none := by
  have unchanged : c.reclaim lines = c := by
    unfold Capture.reclaim
    rw [Capture.candidates_eq_nil.mpr no_candidate]
    rfl
  simp only [Capture.grantPage, empty, unchanged]

theorem Capture.storeFirst_refused {c : Capture} {lines : Vector Line 8} (h : c.grantPage lines = none) (i : Fin 8)
    (b : Byte) : c.storeFirst lines i b = none := by
  simp only [Capture.storeFirst, h]

/-- The candidates depend on the lines' policies alone. -/
theorem Capture.candidate_lineAt (s : State) (i : Fin 8) (c : Capture) {m : Line} (cfg : m.cfg = s.lines[i].cfg)
    (j : Fin 8) (x : Nat) (g : Frame) :
    c.Candidate (s.lineAt i c m).lines j x g ↔ c.Candidate s.lines j x g := by
  have same : (s.lineAt i c m).lines[j].cfg = s.lines[j].cfg := by
    by_cases h : j = i
    · subst h; rw [State.lineAt_same, cfg]
    · rw [State.lineAt_other s i j h]
  unfold Capture.Candidate
  rw [same]

/-! ### An abandoned frame (R6) -/

/-- A line that has counted a lost frame. -/
def Line.lostOne (m : Line) : Line :=
  { m with counters := { m.counters with lost := m.counters.lost + 1 }, attention := true }

/-- A line whose frame in reception is abandoned: lost counted, the attention flag set, DISCARDING. -/
def Line.abandoned (m : Line) : Line :=
  { m.lostOne with reception := .discarding, current := none, escape := false, discardLeft := none }

section
variable (s : State) (i : Fin 8) (c : Capture) (m : Line) {cur : CurrentFrame}

theorem State.abandonFrame_unheld (moving : m.state ≠ .stopping) (slot : cur.slot = none) (total : cur.total = none) :
    (s.lineAt i c m).abandonFrame i cur = s.lineAt i c m.abandoned := by
  unfold State.abandonFrame
  simp only [slot, total, Option.map_none, State.lineAt_capture, State.lineAt_setCapture, State.lineAt_modLine]
  exact congrArg _ (Line.toDiscard_running (l := m.lostOne) moving (Option.some_ne_none 0).symm)

/-- The pages that it held are free. -/
theorem State.abandonFrame_held (moving : m.state ≠ .stopping) {id : Nat} {f : Frame} (slot : cur.slot = some id)
    (frame : c.frame? id = some f) (total : cur.total = none) :
    (s.lineAt i c m).abandonFrame i cur
      = s.lineAt i { c with free := c.free ++ f.pages, slots := eraseKey id c.slots } m.abandoned := by
  unfold State.abandonFrame
  simp only [slot, total, Option.map_none, State.lineAt_capture, Capture.freeFrame_of_frame frame,
    State.lineAt_setCapture, State.lineAt_modLine]
  exact congrArg _ (Line.toDiscard_running (l := m.lostOne) moving (Option.some_ne_none 0).symm)

/-- A GAP line's character for whose byte there is no page abandons the frame that it belongs to (R6, R41). -/
theorem State.character_refused {s : State} {i : Fin 8} {a : Line} {cur : CurrentFrame} {b : Byte} (errored : Bool)
    (gap : a.cfg.mode = .gap) (running : a.Running) (frame : a.frameFor s.time = some cur)
    (taking : cur.taking = .stored) (room : cur.count < a.cfg.maxLength)
    (claim : (s.lineAt i s.capture (a.entered s.time)).claimByte i cur b = none) :
    (s.lineAt i s.capture a).character i b errored = (s.lineAt i s.capture (a.entered s.time)).abandonFrame i cur := by
  have run := (s.character_gap i s.capture a b errored gap).trans
    (s.gapCharacter_inFrame i s.capture running frame b errored)
  rwa [State.frameByte_refused s i s.capture _ b errored taking (by rw [Line.entered_cfg]; exact room) claim] at run

end

/-- The line of an event, once pool pressure has been evaluated. -/
theorem State.conclude_lineAt_line (s : State) (i : Fin 8) (c : Capture) (m : Line) :
    (State.conclude s (s.lineAt i c m)).lines[i] = m.pressed c.pressure (Capture.pressureSince s.capture c) := by
  rw [State.conclude_line, State.lineAt_same, State.lineAt_capture]

/-- Settles O30: a frame begun in HUNT with and without a candidate, and a further page of a frame in reception. -/
theorem exhaustionReclaimsOrAbandons : Obligations.ExhaustionReclaimsOrAbandons := by
  intro i bits parityBit s l value candidate active low few gap empty length held
  let errored := parityError l.cfg.parity value parityBit || !true
  let a := l.charDone s.time.elapsed errored true
  have sampling : s.Sampling i 2 := ⟨Or.inl active, low, few⟩
  have running : a.Running := Or.inl active
  have moving : a.state ≠ .stopping := running.ne_stopping
  have stored : (a.fresh s.time).taking = .stored := Line.fresh_active (l := a) active s.time
  have candidates (m : Line) (cfg : m.cfg = l.cfg) :
      (∃ j x g, s.capture.Candidate (s.lineAt i s.capture m).lines j x g) ↔ ∃ j x g, candidate j x g := by
    simp only [Capture.candidate_lineAt s i s.capture cfg]
    rfl
  have enters (hunt : l.reception = .hunt) : a.entered s.time = a.begun s.time := Line.entered_hunt (l := a) hunt s.time
  have fresh (hunt : l.reception = .hunt) : a.frameFor s.time = some (a.fresh s.time) :=
    Line.frameFor_hunt (l := a) hunt s.time
  refine ⟨fun hunt some_candidate => ?_, fun hunt no_candidate => ?_,
    fun cur id f receiving current taking slot frame room full total no_candidate => ?_⟩
  · obtain ⟨j, x, g, page, rest, chosen, oldest, pages, grant⟩ :=
      Capture.grantPage_reclaims empty held ((candidates (a.begun s.time) rfl).mpr some_candidate)
    simp only [Capture.candidate_lineAt s i s.capture (show (a.begun s.time).cfg = s.lines[i].cfg from rfl)]
      at chosen oldest
    have run := State.character_gap_stored (s := s) (i := i) (a := a) errored gap running (fresh hunt) stored length
      (by rw [enters hunt]; exact Capture.storeFirst_granted _ grant i value)
    refine ⟨_, exec_characterCompletion sampling rfl rfl run rfl few, j, x, g, page, rest, chosen, oldest, pages, ?_⟩
    refine ⟨State.conclude_hist _ _, State.conclude_slots _ _, State.conclude_free _ _, State.conclude_mem _ _,
      State.conclude_handed _ _, ?_, ?_, State.conclude_store _ _, State.conclude_records _ _⟩
    · rw [State.conclude_lineAt_line, Line.pressed_reception]
      rfl
    · rw [State.conclude_lineAt_line, Line.pressed_counters]
      rfl
  · have claim := Capture.storeFirst_refused (Capture.grantPage_refused empty
      (fun h => no_candidate ((candidates (a.begun s.time) rfl).mp h))) i value
    have run := State.character_refused (s := s) (i := i) (a := a) errored gap running (fresh hunt) stored length
      (by rw [enters hunt]; exact claim)
    rw [enters hunt, State.abandonFrame_unheld s i s.capture (a.begun s.time) (cur := a.fresh s.time) moving rfl rfl] at run
    have leaves := characterCompletion_leaves sampling rfl rfl run rfl few s.capture.calmSince_refl
    refine ⟨_, leaves, rfl, ?_⟩
    have line := s.setLine_same i (a.begun s.time).abandoned
    refine ⟨congrArg (·.counters.lost) line, congrArg Line.attention line, congrArg Line.reception line,
      congrArg Line.current line, (congrArg Line.nextSeq line :), fun j other => s.setLine_other i j other _, rfl⟩
  · have claim := Capture.storeNext_refused _ frame full (Capture.grantPage_refused empty
      (fun h => no_candidate ((candidates a rfl).mp h))) value
    have within := Line.entered_receiving (t := s.time) (show a.reception = .receiving from receiving)
    have run := State.character_refused (s := s) (i := i) (a := a) (b := value) errored gap running
      (Line.frameFor_receiving receiving current) taking room (by
        rw [within]
        unfold State.claimByte
        rw [slot]
        exact Option.map_eq_none_iff.mpr claim)
    rw [within, State.abandonFrame_held s i s.capture a moving slot frame total] at run
    refine ⟨_, exec_characterCompletion sampling rfl rfl run rfl few, ?_⟩
    refine ⟨?_, State.conclude_slots _ _, State.conclude_hist _ _, State.conclude_mem _ _, ?_⟩
    · rw [State.conclude_free, State.lineAt_capture, empty]
      rfl
    · rw [State.conclude_lineAt_line, Line.pressed_counters, Line.pressed_reception, Line.pressed_current,
        Line.pressed_nextSeq, Line.pressed_awaiting]
      exact ⟨rfl, Line.pressed_attention _ _ _ rfl, rfl, rfl, rfl, rfl⟩

/-! ### A page claim at the low mark (R43) -/

/-- A claim that leaves the low mark's pages free or fewer sets pool pressure. -/
theorem Capture.pressureSince_low {old c : Capture} (off : c.pressure = false) (claimed : c.free.length ≠ old.free.length)
    (low : c.free.length ≤ c.lowMark) : Capture.pressureSince old c = true := by
  unfold Capture.pressureSince Capture.freeCount
  rw [if_neg claimed, off]
  exact decide_eq_true low

theorem State.conclude_freeKey (old s : State) : (State.conclude old s).freeKey = s.freeKey :=
  (congrArg State.freeKey (State.conclude_only old s) :)

/-- Settles O34: SET_POOL_MARK refused and accepted, then the claim that reaches the low mark. -/
theorem setPoolMarkEvaluatesPressure : Obligations.SetPoolMarkEvaluatesPressure := by
  refine ⟨fun tag mark s h => ⟨fun big => ?_, setPoolMark_accepted tag mark s h⟩, ?_⟩
  · exact s.serve_refuses _ _ _ rfl h fun l k => setPoolMarkBody_badArgument big _
  · intro i bits parityBit stopHigh s page rest l value errored id taken sampling active gap hunt length free off low
    let a := l.charDone s.time.elapsed errored stopHigh
    let d : Capture := { s.capture with
      free := rest, slots := insertKey id (Frame.begun i page) s.capture.slots
      mem := s.capture.mem.write (page * 64) value }
    have running : a.Running := Or.inl active
    have fresh : a.frameFor s.time = some (l.fresh s.time) := Line.frameFor_hunt (l := a) hunt s.time
    have run : (s.lineAt i s.capture a).character i value errored = s.lineAt i d taken :=
      State.character_gap_stored errored gap running fresh (Line.fresh_active active s.time) length
        (Capture.storeFirst_granted _ (Capture.grantPage_head free _) i value)
    have on : Capture.pressureSince s.capture d = true :=
      Capture.pressureSince_low off (by rw [free, List.length_cons]; exact (Nat.succ_ne_self _).symm) low
    have whole := State.conclude_only s (s.lineAt i d taken)
    refine ⟨_, exec_characterCompletion sampling rfl rfl run rfl sampling.2.2, ?_, ?_, fun j other => ?_, fun q => ?_⟩
    · rw [State.lineAt_capture, on] at whole
      rw [State.conclude_freeKey]
      exact whole
    · rw [State.conclude_lineAt_line, on]
      exact congrArg (taken.pressed · true) off
    · rw [State.conclude_line, State.lineAt_other s i j other, State.lineAt_capture, on]
      exact congrArg (s.lines[j].pressed · true) off
    · have joins := s.announce_setPressure (s.lineAt i d taken) true q rfl rfl (State.lineAt_states s i d rfl)
      have evaluated : State.evalPressure s (s.lineAt i d taken) = (s.lineAt i d taken).setPressure true := by
        rw [State.evalPressure_eq, State.lineAt_capture, on]
      unfold State.conclude
      rw [evaluated]
      refine joins.trans (congrArg _ (State.pressureNotices_congr s ?_ ?_)) <;> rw [State.announce_only]

end Sys2Proof.Machine
end

section
/-! PROOFS. CLASSIFICATION without a matching entry (R54 to R60): keep claims and drop claims (R29 to R33). -/

namespace Sys2Proof.Machine

/-! ### Frames in slots -/

theorem insertKey_insertKey {α : Type} (k : Nat) (v w : α) (l : List (Nat × α)) :
    insertKey k v (insertKey k w l) = insertKey k v l := by
  induction l with
  | nil => simp [insertKey]
  | cons entry rest ih =>
    obtain ⟨j, u⟩ := entry
    unfold insertKey
    by_cases before : k < j
    · simp [insertKey, before]
    · by_cases here : k = j
      · simp [insertKey, here]
      · simp [insertKey, before, here, ih]

theorem Capture.modFrame_of_frame {c : Capture} {id : Nat} {f : Frame} (frame : c.frame? id = some f)
    (g : Frame → Frame) : c.modFrame id g = { c with slots := insertKey id (g f) c.slots } := by
  unfold Capture.modFrame
  rw [frame]
  rfl

theorem Capture.leave_free {c : Capture} {id : Nat} {f : Frame} (frame : c.frame? id = some f) :
    (c.leave id).free = if f.pins = 0 then c.free ++ f.pages else c.free := by
  unfold Capture.leave
  simp only [frame]
  split
  · rw [Capture.freeFrame_of_frame frame]
  · rfl

/-! ### No entry matches (R54, R59) -/

theorem Matcher.matchesFrame_disabled (m : Matcher) {e : EntryDef} (h : e.enabled ≠ 1) (f : Frame) (bytes : List Byte)
    (ref : Stamp) : m.matchesFrame e f bytes ref = false := by
  have off : (e.enabled == 1) = false := beq_eq_false_iff_ne.mpr h
  simp only [Matcher.matchesFrame, off, Bool.and_false, Bool.false_and]

/-- A test that no entry meets leaves the table and matches nothing. -/
theorem Matcher.evaluate_none (m : Matcher) (test : Matcher → EntryDef → Bool) (t : Stamp)
    (h : ∀ e : Fin 16, test m m.entries[e].body = false) : m.evaluate test t = (m, 0) := by
  unfold Matcher.evaluate
  induction allEntries with
  | nil => rfl
  | cons e rest ih =>
    rw [List.foldl_cons, if_neg (by rw [h e]; exact Bool.false_ne_true)]
    exact ih

theorem inSet_zero (n : Nat) : inSet (0 : Half) n = false := BitVec.getLsbD_zero

theorem Matcher.firing_none (m : Matcher) : m.firing 0 = [] :=
  List.filter_eq_nil_iff.mpr fun e _ => by
    simp only [inSet_zero, Bool.false_and, Bool.false_eq_true, not_false_eq_true]

theorem State.drops_unmatched (s : State) (i : Fin 8) (f : Frame) :
    s.drops i f 0 false = (isBad f.check f.flags && !s.lines[i].cfg.keepBad) := by
  have none_drops : (allEntries.any fun e => inSet (0 : Half) e.val && s.matcher.entries[e].body.action == actionDrop)
      = false :=
    List.any_eq_false.mpr fun e _ => by simp only [inSet_zero, Bool.false_and, Bool.false_eq_true, not_false_eq_true]
  unfold State.drops
  simp only [none_drops, Bool.false_or, Bool.not_false, Bool.and_true]

/-- The claim of a frame that no entry matches, without incidents: a drop claim of a bad frame that its line does not
keep, and a keep claim of any other (R59). -/
theorem State.classifyFrame_unmatched {s : State} {i : Fin 8} {id : Nat} {f : Frame}
    (disabled : ∀ e : Fin 16, s.matcher.entries[e].body.enabled ≠ 1) (unopened : s.inc.opened = [])
    (frame : s.capture.frame? id = some f) :
    let c := { s.capture with slots := insertKey id { f with matchSet := 0 } s.capture.slots }
    s.classifyFrame i id f
      = if (isBad f.check f.flags && !s.lines[i].cfg.keepBad) = true then ({ s with capture := c }).dropClaim i id
        else ({ s with capture := c }).keepClaim i id := by
  intro c
  have unmatched : s.matcher.evaluate (fun m e => m.matchesFrame e f (s.capture.frameBytes f) s.time.tod) f.start
      = (s.matcher, 0) := s.matcher.evaluate_none _ _ fun e => s.matcher.matchesFrame_disabled (disabled e) _ _ _
  have unfired : ∀ t : State, t.fire (frameRequest i id f) [] = (t, false) := fun _ => rfl
  have arrives : ({ s with capture := c }).arrive id i = { s with capture := c } := by
    unfold State.arrive
    rw [unopened]
    rfl
  unfold State.classifyFrame
  simp only [unmatched, Matcher.firing_none, unfired, State.drops_unmatched, Capture.modFrame_of_frame frame]
  split
  · rfl
  · exact congrArg (State.keepClaim · i id) arrives

/-! ### Keep claims and drop claims (R29 to R33) -/

/-- Capture memory with the frame of a slot appended to a history (R30). -/
def Capture.appended (c : Capture) (i : Fin 8) (id : Nat) (g : Frame) : Capture :=
  { c with hist := c.hist.set i (c.hist[i] ++ [id]), slots := insertKey id { g with place := .inHistory } c.slots }

/-- A line that has counted a kept frame. -/
def Line.keptOne (m : Line) : Line := { m with counters := { m.counters with kept := m.counters.kept + 1 } }

/-- A line that has counted a dropped frame. -/
def Line.droppedOne (m : Line) : Line := { m with counters := { m.counters with dropped := m.counters.dropped + 1 } }

section
variable (s : State) (i : Fin 8) (c : Capture) (m : Line) (id : Nat) {g : Frame}

theorem State.lineAt_dropClaim : (s.lineAt i c m).dropClaim i id = s.lineAt i (c.leave id) m.droppedOne := by
  unfold State.dropClaim
  simp only [State.lineAt_capture, State.lineAt_setCapture, State.lineAt_modLine]
  rfl

theorem State.lineAt_append (frame : c.frame? id = some g) :
    (s.lineAt i c m).append i id = s.lineAt i (c.appended i id g) m.keptOne := by
  unfold State.append
  simp only [State.lineAt_capture, State.lineAt_setCapture, State.lineAt_modLine]
  rw [Capture.modFrame_of_frame (c := { c with hist := c.hist.set i (c.hist[i] ++ [id]) }) frame]
  rfl

/-- A RING history below its depth takes the frame (R31). -/
theorem State.lineAt_keepRing_below (frame : c.frame? id = some g) (below : (c.hist[i]).length < m.cfg.depth) :
    (s.lineAt i c m).keepRing i id = s.lineAt i (c.appended i id g) m.keptOne := by
  unfold State.keepRing
  simp only [State.lineAt_capture, State.lineAt_same]
  split
  next oldest more hist =>
    rw [hist, List.length_cons] at below
    rw [if_neg (Nat.not_le.mpr below), State.lineAt_append s i c m id frame]
  next => rw [State.lineAt_append s i c m id frame]

/-- At its depth the oldest frame is displaced (R31). -/
theorem State.lineAt_keepRing_full {oldest : Nat} {more : List Nat} (hist : c.hist[i] = oldest :: more)
    (full : m.cfg.depth ≤ (c.hist[i]).length) :
    (s.lineAt i c m).keepRing i id
      = (s.lineAt i (({ c with hist := c.hist.set i more } : Capture).leave oldest) m).append i id := by
  rw [hist, List.length_cons] at full
  unfold State.keepRing
  simp only [State.lineAt_capture, State.lineAt_same, hist]
  rw [if_pos full]
  rfl

/-- A FEED line below its limit takes the frame: FEED_READY on an empty history, SUSPENDED at the limit (R32, R161). -/
theorem State.lineAt_keepFeed_below (frame : c.frame? id = some g) (below : c.total i < m.cfg.depth) :
    (s.lineAt i c m).keepFeed i id
      = { s.lineAt i (c.appended i id g) (m.keptOne.suspendAt (c.total i + 1)) with
          link := if c.hist[i] = [] then
              s.link.notify s.time.tod (.feedReady i g.seq 1 (c.handed[i]).length
                (m.keptOne.suspendAt (c.total i + 1)).state)
            else s.link } := by
  have seq : (c.appended i id g).seqOf id = g.seq := by
    unfold Capture.seqOf
    rw [show (c.appended i id g).frame? id = some { g with place := .inHistory } from lookupKey_insertKey_same _ _ _]
    rfl
  unfold State.keepFeed
  simp only [State.lineAt_capture, State.lineAt_same]
  rw [if_pos below, State.lineAt_append s i c m id frame]
  simp only [State.lineAt_modLine, State.lineAt_capture, State.lineAt_same, seq]
  split <;> rfl

/-- At its limit it does not (R33). -/
theorem State.lineAt_keepFeed_full (frame : c.frame? id = some g) (unpinned : g.pins = 0)
    (full : m.cfg.depth ≤ c.total i) :
    (s.lineAt i c m).keepFeed i id = (s.lineAt i c m).dropClaim i id := by
  unfold State.keepFeed
  simp only [State.lineAt_capture, State.lineAt_same, frame]
  rw [if_neg (Nat.not_lt.mpr full), if_pos unpinned]

theorem State.lineAt_keepClaim_ring (ring : m.cfg.policy = .ring) :
    (s.lineAt i c m).keepClaim i id = (s.lineAt i c m).keepRing i id := by
  unfold State.keepClaim
  simp only [State.lineAt_same, ring]

theorem State.lineAt_keepClaim_feed (feed : m.cfg.policy = .feed) :
    (s.lineAt i c m).keepClaim i id = (s.lineAt i c m).keepFeed i id := by
  unfold State.keepClaim
  simp only [State.lineAt_same, feed]

end

/-- An ACTIVE line at an append: SUSPENDED at the limit, with its attention flag (R19, R20). -/
theorem Line.suspendAt_active {m : Line} (active : m.state = .active) (n : Nat) :
    m.suspendAt n = { m with
      state := if n = m.cfg.depth then .suspended else .active
      attention := m.attention || decide (n = m.cfg.depth) } := by
  unfold Line.suspendAt
  by_cases full : n = m.cfg.depth
  · rw [if_pos ⟨full, Or.inl active⟩, if_pos full, decide_eq_true full]
    simp [Line.enter]
  · rw [if_neg fun h => full h.1, if_neg full, decide_eq_false full, Bool.or_false, ← active]

/-- The LINE_STATE of a line that an append may have moved from ACTIVE to SUSPENDED (R200). -/
theorem Link.notify_suspension (k : Link) (tod : Stamp) (i : Fin 8) (attention : Bool) (full : Prop) [Decidable full] :
    (if (if full then LineState.suspended else .active) = .active then k
      else k.notify tod (.lineState i (if full then .suspended else .active) .active (attention || decide full)))
      = if full then k.notify tod (.lineState i .suspended .active true) else k := by
  by_cases h : full
  · simp only [if_pos h, decide_eq_true h, Bool.or_true]
    exact if_neg LineState.noConfusion
  · simp only [if_neg h, if_true]

/-! ### The end of a classification -/

/-- The arbiter leaves alone what it has nothing to grant to (R107). -/
theorem State.arbitrate_nothing {s : State} (h : s.NothingToGrant) : s.arbitrate = s := by
  unfold State.arbitrate
  obtain busy | ⟨work, queue, reclaim⟩ := h
  · rw [busy]
    rfl
  · have commit : s.grantCommit = s := by
      unfold State.grantCommit
      rw [queue]
    have background : s.grantReclaim = s := by
      unfold State.grantReclaim
      rw [reclaim]
    simp only [work, commit, background, ite_self]

theorem State.settleEvent_nothing {s x : State} (h : s.NothingToGrant) (store : x.store = s.store)
    (queue : x.inc.queue = s.inc.queue) : State.settleEvent s x = State.conclude s x := by
  refine State.arbitrate_nothing ?_
  unfold State.NothingToGrant State.arrayIdle
  rw [State.conclude_store, State.conclude_inc, store]
  exact queue ▸ h

/-- Without incidents EVT_OUT is low (R93). -/
theorem Incidents.evaluated_empty {u : Incidents} (h : ∀ k : Fin 4, u.table[k] = none) :
    u.evaluated = { u with evtOut := false } := by
  have none_collects : collectingCount u = 0 := by
    unfold collectingCount
    exact List.length_eq_zero_iff.mpr (List.filter_eq_nil_iff.mpr fun k _ => by rw [h k]; exact Bool.false_ne_true)
  unfold Incidents.evaluated
  rw [none_collects]
  rfl

section
variable {i : Fin 8} {s : State} {id : Nat} {rest : List Nat} {f : Frame}
  (disabled : ∀ e : Fin 16, s.matcher.entries[e].body.enabled ≠ 1) (awaiting : s.lines[i].awaiting = id :: rest)
  (frame : s.capture.frame? id = some f) (unopened : s.inc.opened = []) (nothing : s.NothingToGrant)

/-- The capture memory in which the frame of a slot has matched no entry. -/
def Capture.unmatched (c : Capture) (id : Nat) (f : Frame) : Capture :=
  { c with slots := insertKey id { f with matchSet := 0 } c.slots }

theorem Capture.unmatched_frame (c : Capture) (id : Nat) (f : Frame) :
    (c.unmatched id f).frame? id = some { f with matchSet := 0 } := lookupKey_insertKey_same _ _ _

include disabled awaiting frame unopened nothing in
/-- CLASSIFICATION of a frame that no entry matches, whose claim changes its line, capture memory and the link. -/
theorem classification_unmatched {c : Capture} {m : Line} {k : Link}
    (claim : (if (isBad f.check f.flags && !s.lines[i].cfg.keepBad) = true
        then (s.lineAt i (s.capture.unmatched id f) { s.lines[i] with awaiting := rest }).dropClaim i id
        else (s.lineAt i (s.capture.unmatched id f) { s.lines[i] with awaiting := rest }).keepClaim i id)
      = { s.lineAt i c m with link := k })
    (moving : m.state ≠ .stopping) :
    exec (.classification i) s = .next (State.conclude s { s.lineAt i c m with link := k }) := by
  have placed : (s.modLine i fun l => { l with awaiting := rest }).classifyFrame i id f
      = { s.lineAt i c m with link := k } := by
    have claims := State.classifyFrame_unmatched (i := i)
      (s := s.lineAt i s.capture { s.lines[i] with awaiting := rest }) disabled unopened frame
    rw [State.lineAt_same] at claims
    exact claims.trans claim
  have stays : ({ s.lineAt i c m with link := k } : State).modLine i Line.finishStop
      = { s.lineAt i c m with link := k } := by
    have line : (s.lineAt i c m).modLine i Line.finishStop = s.lineAt i c m := by
      rw [State.lineAt_modLine, Line.finishStop_running moving]
    exact congrArg (fun t : State => { t with link := k }) line
  have event : s.classify i = State.settleEvent s { s.lineAt i c m with link := k } := by
    unfold State.classify
    simp only [awaiting, frame, placed, stays]
  have settled : State.settleEvent s { s.lineAt i c m with link := k }
      = State.conclude s { s.lineAt i c m with link := k } :=
    State.settleEvent_nothing nothing rfl rfl
  exact congrArg Host.Outcome.next (event.trans settled)

end

/-- Settles O42: RING below and at its depth, FEED below its limit, then the drop claims. -/
theorem unmatchedFramesArePlacedOrDropped : Obligations.UnmatchedFramesArePlacedOrDropped := by
  intro i s id rest f l h total keep kept appended taken disabled awaiting frame unpinned active unheld unopened nothing
  let c := s.capture.unmatched id f
  let m : Line := { l with awaiting := rest }
  have slotted : c.frame? id = some { f with matchSet := 0 } := s.capture.unmatched_frame id f
  have whole := fun (d : Capture) (n : Line) (k : Link) =>
    classification_unmatched disabled awaiting frame unopened nothing (c := d) (m := n) (k := k)
  have evaluated : s.inc.evaluated = { s.inc with evtOut := false } := Incidents.evaluated_empty unheld
  have keeps (hk : keep) : ¬ (isBad f.check f.flags && !l.cfg.keepBad) = true := by
    obtain good | keepBad := hk
    · rw [good]; exact Bool.false_ne_true
    · rw [keepBad, Bool.not_true, Bool.and_false]; exact Bool.false_ne_true
  have grown : c.appended i id { f with matchSet := 0 } = appended :=
    congrArg (fun slots => { s.capture with hist := s.capture.hist.set i (h ++ [id]), slots := slots })
      (insertKey_insertKey id kept _ s.capture.slots)
  have calm : Capture.CalmSince s.capture appended := Capture.calmSince_of_free rfl rfl
  have moving : m.state ≠ .stopping := active ▸ LineState.noConfusion
  refine ⟨fun hk ring below => ?_, fun oldest more g hk ring hist full other found => ?_, fun hk feed below => ?_,
    fun dropped => ?_⟩
  · have claim := (s.lineAt_keepClaim_ring i c m id ring).trans (s.lineAt_keepRing_below i c m id slotted below)
    rw [grown] at claim
    have run := whole appended m.keptOne s.link ((if_neg (keeps hk)).trans claim) moving
    have ends := s.conclude_lineAt i appended m.keptOne rfl calm
    rw [evaluated] at ends
    exact run.trans (congrArg _ ends)
  · let e : Capture := { c with hist := c.hist.set i more }
    let d := e.leave oldest
    have stays : d = { e with free := d.free, slots := d.slots } := e.leave_only oldest
    have slot : d.frame? id = some { f with matchSet := 0 } :=
      (e.leave_frame_other oldest id (Ne.symm other)).trans slotted
    have found : e.frame? oldest = some g := (lookupKey_insertKey_other id oldest other _ _).trans found
    have claim := ((s.lineAt_keepClaim_ring i c m id ring).trans (s.lineAt_keepRing_full i c m id hist full)).trans
      (s.lineAt_append i d m id slot)
    have run : exec (.classification i) s = .next (State.conclude s (s.lineAt i (d.appended i id _) m.keptOne)) :=
      whole _ m.keptOne s.link ((if_neg (keeps hk)).trans claim) moving
    refine ⟨_, run, ?_, ?_, ?_, ?_, ?_, ?_, ?_⟩
    · rw [State.conclude_hist, State.lineAt_capture, Capture.appended, stays]
      simp only [e, Vector.set_set, Fin.getElem_fin, Vector.getElem_set_self]
      rfl
    · rw [State.conclude_frame]
      exact lookupKey_insertKey_same id _ _
    · rw [State.conclude_frame]
      refine (lookupKey_insertKey_other id oldest other _ _).trans ((e.leave_frame_same oldest).trans ?_)
      rw [found]
      rfl
    · rw [State.conclude_free]
      exact Capture.leave_free found
    · rw [State.conclude_handed, State.lineAt_capture, Capture.appended, stays]
      rfl
    · rw [State.conclude_mem, State.lineAt_capture, Capture.appended, stays]
      rfl
    · rw [State.conclude_lineAt_line, Line.pressed_awaiting, Line.pressed_counters]
      exact ⟨rfl, rfl⟩
  · let full : Prop := total + 1 = l.cfg.depth
    let st := if full then LineState.suspended else .active
    let n : Line := { taken with state := st, attention := l.attention || decide full }
    let k1 := if h = [] then s.link.notify s.time.tod (.feedReady i f.seq 1 (s.capture.handed[i]).length st) else s.link
    have still : n.state ≠ .stopping := by
      change st ≠ .stopping
      unfold st
      split <;> exact LineState.noConfusion
    have claim := (s.lineAt_keepClaim_feed i c m id feed).trans (s.lineAt_keepFeed_below i c m id slotted below)
    rw [grown, Line.suspendAt_active (m := m.keptOne) active] at claim
    have run := whole appended n k1 ((if_neg (keeps hk)).trans claim) still
    have ends := s.conclude_lineAt_link i appended n k1 calm
    rw [evaluated, show s.lines[i].state = .active from active] at ends
    have announced := k1.notify_suspension s.time.tod i l.attention full
    exact (run.trans (congrArg _ ends)).trans (congrArg (fun k => Host.Outcome.next { s with
      capture := appended, lines := s.lines.set i n, inc := { s.inc with evtOut := false }, link := k }) announced)
  · have claim : (if (isBad f.check f.flags && !l.cfg.keepBad) = true then (s.lineAt i c m).dropClaim i id
        else (s.lineAt i c m).keepClaim i id) = s.lineAt i (c.leave id) m.droppedOne := by
      rw [← State.lineAt_dropClaim]
      obtain ⟨hk, feed, full⟩ | ⟨bad, unkept⟩ := dropped
      · rw [if_neg (keeps hk), State.lineAt_keepClaim_feed s i c m id feed,
          State.lineAt_keepFeed_full s i c m id slotted unpinned full]
      · exact if_pos (by rw [bad, unkept]; rfl)
    have run : exec (.classification i) s = .next (State.conclude s (s.lineAt i (c.leave id) m.droppedOne)) :=
      whole _ _ s.link claim moving
    have stays := c.leave_only id
    refine ⟨_, run, ?_, ?_, ?_, ?_, ?_, ?_, ?_⟩
    · rw [State.conclude_frame, State.lineAt_capture, c.leave_frame_same id, slotted]
      exact if_pos unpinned
    · rw [State.conclude_free]
      exact (Capture.leave_free slotted).trans (if_pos unpinned)
    · rw [State.conclude_hist, State.lineAt_capture, stays]
      rfl
    · rw [State.conclude_handed, State.lineAt_capture, stays]
      rfl
    · rw [State.conclude_mem, State.lineAt_capture, stays]
      rfl
    · rw [State.conclude_lineAt_line, Line.pressed_awaiting]
      rfl
    · rw [State.conclude_lineAt_line, Line.pressed_counters]
      rfl

end Sys2Proof.Machine
end

section
/-! PROOFS. Slots and pages of capture memory: lists by key, pages in free list and chains (R25 to R28), pin counts
(R36, R37), and where frames stand (R30, R34). -/

namespace Sys2Proof.Machine

/-! ### Lists by rising keys -/

theorem vector_get_set {α : Type} {n : Nat} (v : Vector α n) (i j : Fin n) (a : α) :
    (v.set i a)[j] = if j = i then a else v[j] := by
  by_cases h : j = i
  · subst h; simp
  · have apart : i.val ≠ j.val := fun e => h (Fin.ext e.symm)
    simp [apart, h]

theorem eraseKey_of_absent {α : Type} {k : Nat} {l : List (Nat × α)} (h : lookupKey k l = none) : eraseKey k l = l := by
  induction l with
  | nil => rfl
  | cons entry rest ih =>
    obtain ⟨j, v⟩ := entry
    by_cases here : j = k
    · simp [lookupKey, here] at h
    · have absent : lookupKey k rest = none := by simpa [lookupKey, here] using h
      have kept : eraseKey k ((j, v) :: rest) = (j, v) :: eraseKey k rest := by simp [eraseKey, here]
      rw [kept, ih absent]

/-- A key below all others is not in the list. -/
theorem lookupKey_below {α : Type} {k : Nat} {l : List (Nat × α)} (h : ∀ c ∈ l, k < c.1) : lookupKey k l = none := by
  induction l with
  | nil => rfl
  | cons entry rest ih =>
    obtain ⟨j, v⟩ := entry
    have below : k < j := h (j, v) List.mem_cons_self
    unfold lookupKey
    rw [if_neg (Nat.ne_of_gt below)]
    exact ih fun c hc => h c (List.mem_cons_of_mem _ hc)

/-- Taking a key out of a list with rising keys takes its one entry out. -/
theorem perm_cons_eraseKey {α : Type} {k : Nat} {v : α} {l : List (Nat × α)} (rising : risingKeys l = true)
    (h : lookupKey k l = some v) : l.Perm ((k, v) :: eraseKey k l) := by
  rw [risingKeys_iff_pairwise] at rising
  induction l with
  | nil => simp [lookupKey] at h
  | cons entry rest ih =>
    obtain ⟨j, w⟩ := entry
    obtain ⟨above, rising⟩ := List.pairwise_cons.mp rising
    by_cases here : j = k
    · subst here
      obtain rfl : w = v := by simpa [lookupKey] using h
      have gone : eraseKey j ((j, w) :: rest) = eraseKey j rest := by simp [eraseKey]
      rw [gone, eraseKey_of_absent (lookupKey_below above)]
    · have kept : eraseKey k ((j, w) :: rest) = (j, w) :: eraseKey k rest := by simp [eraseKey, here]
      rw [kept]
      exact ((ih rising (by simpa [lookupKey, here] using h)).cons _).trans (List.Perm.swap _ _ _)

/-- A list with rising keys after a key has been given a value. -/
theorem insertKey_perm {α : Type} (k : Nat) (v : α) {l : List (Nat × α)} (rising : risingKeys l = true) :
    (insertKey k v l).Perm ((k, v) :: eraseKey k l) := by
  have taken := perm_cons_eraseKey (insertKey_rising k v l rising) (lookupKey_insertKey_same k v l)
  have same : eraseKey k (insertKey k v l) = eraseKey k l := by
    clear taken rising
    induction l with
    | nil => simp [insertKey, eraseKey]
    | cons entry rest ih =>
      obtain ⟨j, w⟩ := entry
      unfold insertKey
      by_cases before : k < j
      · simp [eraseKey, before]
      · by_cases here : k = j
        · simp [eraseKey, here]
        · simpa [eraseKey, before, here, Ne.symm here] using ih
  rwa [same] at taken

/-- The lowest number that is no key is no key. -/
theorem lookupKey_lowestFree {α : Type} (l : List (Nat × α)) (n : Nat) (rising : risingKeys l = true)
    (above : ∀ c ∈ l, n ≤ c.1) : lookupKey (lowestFree n l) l = none ∧ n ≤ lowestFree n l := by
  rw [risingKeys_iff_pairwise] at rising
  induction l generalizing n with
  | nil => exact ⟨rfl, Nat.le_refl n⟩
  | cons entry rest ih =>
    obtain ⟨j, w⟩ := entry
    obtain ⟨least, rising⟩ := List.pairwise_cons.mp rising
    unfold lowestFree
    split
    next here =>
      subst here
      obtain ⟨absent, le⟩ := ih (j + 1) rising fun c hc => least c hc
      refine ⟨?_, Nat.le_of_succ_le le⟩
      unfold lookupKey
      rw [if_neg (Nat.ne_of_lt le)]
      exact absent
    next other =>
      have below : n < j := Nat.lt_of_le_of_ne (above (j, w) List.mem_cons_self) (Ne.symm other)
      refine ⟨lookupKey_below fun c hc => ?_, Nat.le_refl n⟩
      obtain rfl | later := List.mem_cons.mp hc
      · exact below
      · exact Nat.lt_trans below (least c later)

/-! ### Pages (R25) -/

/-- Every page is on the free page list or in one chain, and the slots are listed by rising number. -/
def Capture.PagesWhole (c : Capture) : Prop :=
  (c.free ++ c.slots.flatMap fun e => e.2.pages).Perm (List.range 1024) ∧ risingKeys c.slots = true

/-- The pages of all slots, once the slot of a frame is set apart. -/
theorem Capture.pages_perm {c : Capture} (rising : risingKeys c.slots = true) {id : Nat} {f : Frame}
    (frame : c.frame? id = some f) :
    (c.slots.flatMap fun e => e.2.pages).Perm (f.pages ++ (eraseKey id c.slots).flatMap fun e => e.2.pages) :=
  (perm_cons_eraseKey rising frame).flatMap_right _

theorem Capture.pages_replaced {c d : Capture} {id : Nat} {f g : Frame} (frame : c.frame? id = some f)
    (slots : d.slots = insertKey id g c.slots) (pages : (d.free ++ g.pages).Perm (c.free ++ f.pages))
    (whole : c.PagesWhole) : d.PagesWhole := by
  obtain ⟨perm, rising⟩ := whole
  refine ⟨?_, slots ▸ insertKey_rising id g _ rising⟩
  have now := (insertKey_perm id g rising).flatMap_right fun e => e.2.pages
  have was := Capture.pages_perm rising frame
  rw [List.flatMap_cons] at now
  rw [slots]
  calc d.free ++ (insertKey id g c.slots).flatMap (fun e => e.2.pages)
      |>.Perm ((d.free ++ g.pages) ++ (eraseKey id c.slots).flatMap fun e => e.2.pages) := by
        rw [List.append_assoc]; exact now.append_left _
    _ |>.Perm ((c.free ++ f.pages) ++ (eraseKey id c.slots).flatMap fun e => e.2.pages) := pages.append_right _
    _ |>.Perm (c.free ++ c.slots.flatMap fun e => e.2.pages) := by
        rw [List.append_assoc]; exact (was.symm).append_left _
    _ |>.Perm (List.range 1024) := perm

theorem Capture.pages_removed {c d : Capture} {id : Nat} {f : Frame} (frame : c.frame? id = some f)
    (slots : d.slots = eraseKey id c.slots) (free : d.free = c.free ++ f.pages) (whole : c.PagesWhole) :
    d.PagesWhole := by
  obtain ⟨perm, rising⟩ := whole
  refine ⟨?_, slots ▸ eraseKey_rising id _ rising⟩
  rw [slots, free, List.append_assoc]
  exact ((Capture.pages_perm rising frame).symm.append_left _).trans perm

theorem Capture.pages_added {c d : Capture} {id : Nat} {g : Frame} (empty : c.frame? id = none)
    (slots : d.slots = insertKey id g c.slots) (pages : (d.free ++ g.pages).Perm c.free) (whole : c.PagesWhole) :
    d.PagesWhole := by
  obtain ⟨perm, rising⟩ := whole
  refine ⟨?_, slots ▸ insertKey_rising id g _ rising⟩
  have now := (insertKey_perm id g rising).flatMap_right fun e => e.2.pages
  rw [List.flatMap_cons, eraseKey_of_absent empty] at now
  rw [slots]
  refine (now.append_left _).trans (List.Perm.trans ?_ perm)
  rw [← List.append_assoc]
  exact pages.append_right _

/-! ### Pin counts (R36, R37, R71) -/

/-- A slot is that of the frame under classification, which has left the frames awaiting it. -/
def IsClassed (x : Option (Fin 8 × Nat)) (id : Nat) : Prop := ∃ i, x = some (i, id)

/-- Pin counts and incidents agree; the frame under classification alone may be pinned before it has a place. -/
def Capture.PinsAgree (c : Capture) (u : Incidents) (x : Option (Fin 8 × Nat)) : Prop :=
  (∀ k n, u.table[(k : Fin 4)] = some n → n.frames.Nodup ∧ ∀ id ∈ n.frames, c.frame? id ≠ none)
    ∧ ∀ id f, c.frame? id = some f →
      f.pins = u.holders id ∧ (f.place = .detached → f.pins ≠ 0)
        ∧ (f.place = .inReception → ¬ IsClassed x id → f.pins = 0)

theorem Incidents.holders_pos {u : Incidents} {k : Fin 4} {n : Incident} {id : Nat} (h : u.table[k] = some n)
    (hid : id ∈ n.frames) : u.holders id ≠ 0 := by
  unfold Incidents.holders
  refine Nat.ne_of_gt (List.length_pos_iff.mpr (List.ne_nil_of_mem (a := k) (List.mem_filter.mpr ⟨?_, ?_⟩)))
  · exact List.mem_finRange k
  · rw [h]; exact decide_eq_true hid

theorem Incidents.holders_eq_zero {u : Incidents} {id : Nat}
    (h : ∀ k n, u.table[(k : Fin 4)] = some n → id ∉ n.frames) : u.holders id = 0 := by
  unfold Incidents.holders
  refine List.length_eq_zero_iff.mpr (List.filter_eq_nil_iff.mpr fun k _ held => ?_)
  obtain ⟨n, hn, hid⟩ := (Option.any_eq_true _ _).mp held
  exact h k n hn (of_decide_eq_true hid)

/-- No incident holds a FREE slot. -/
theorem Capture.PinsAgree.not_held {c : Capture} {u : Incidents} {x : Option (Fin 8 × Nat)} (h : c.PinsAgree u x)
    {id : Nat} (free : c.frame? id = none ∨ ∃ f, c.frame? id = some f ∧ f.pins = 0) {k : Fin 4} {n : Incident}
    (hn : u.table[k] = some n) : id ∉ n.frames := by
  intro hid
  obtain free | ⟨f, frame, unpinned⟩ := free
  · exact (h.1 k n hn).2 id hid free
  · exact Incidents.holders_pos hn hid ((h.2 id f frame).1 ▸ unpinned)

/-- A frame is replaced by one that is pinned as often. -/
theorem Capture.PinsAgree.replaced {c d : Capture} {u : Incidents} {x : Option (Fin 8 × Nat)} {id : Nat} {f g : Frame}
    (h : c.PinsAgree u x) (frame : c.frame? id = some f) (slots : d.slots = insertKey id g c.slots)
    (pins : g.pins = f.pins) (detached : g.place = .detached → g.pins ≠ 0)
    (reception : g.place = .inReception → ¬ IsClassed x id → g.pins = 0) : d.PinsAgree u x := by
  obtain ⟨held, counts⟩ := h
  have same : d.frame? id = some g := by unfold Capture.frame?; rw [slots]; exact lookupKey_insertKey_same id g _
  have other (j : Nat) (hj : j ≠ id) : d.frame? j = c.frame? j := by
    unfold Capture.frame?; rw [slots]; exact lookupKey_insertKey_other id j hj g _
  refine ⟨fun k n hn => ⟨(held k n hn).1, fun j hj => ?_⟩, fun j e he => ?_⟩
  · by_cases here : j = id
    · subst here; rw [same]; exact Option.some_ne_none g
    · rw [other j here]; exact (held k n hn).2 j hj
  · by_cases here : j = id
    · subst here
      obtain rfl := Option.some.inj (same.symm.trans he)
      exact ⟨pins.trans (counts j f frame).1, detached, reception⟩
    · exact counts j e (other j here ▸ he)

/-- A frame that is no longer under classification has a place, or is no more. -/
theorem Capture.PinsAgree.unclassed {c : Capture} {u : Incidents} {x y : Option (Fin 8 × Nat)} (h : c.PinsAgree u x)
    (settled : ∀ id, IsClassed x id → ¬ IsClassed y id → ∀ f, c.frame? id = some f → f.place ≠ .inReception) :
    c.PinsAgree u y := by
  refine ⟨h.1, fun id f frame => ?_⟩
  obtain ⟨count, detached, reception⟩ := h.2 id f frame
  exact ⟨count, detached, fun place unclassed =>
    reception place fun classed => settled id classed unclassed f frame place⟩

/-- An unpinned frame is freed. -/
theorem Capture.PinsAgree.removed {c d : Capture} {u : Incidents} {x : Option (Fin 8 × Nat)} {id : Nat} {f : Frame}
    (h : c.PinsAgree u x) (frame : c.frame? id = some f) (slots : d.slots = eraseKey id c.slots) (unpinned : f.pins = 0) :
    d.PinsAgree u x := by
  have gone : d.frame? id = none := by unfold Capture.frame?; rw [slots]; exact lookupKey_eraseKey_same id _
  have other (j : Nat) (hj : j ≠ id) : d.frame? j = c.frame? j := by
    unfold Capture.frame?; rw [slots]; exact lookupKey_eraseKey_other id j hj _
  refine ⟨fun k n hn => ⟨(h.1 k n hn).1, fun j hj => ?_⟩, fun j e he => ?_⟩
  · have here : j ≠ id := by rintro rfl; exact h.not_held (.inr ⟨f, frame, unpinned⟩) hn hj
    rw [other j here]
    exact (h.1 k n hn).2 j hj
  · have here : j ≠ id := by rintro rfl; exact Option.some_ne_none e (he.symm.trans gone)
    exact h.2 j e (other j here ▸ he)

/-- A FREE slot takes an unpinned frame. -/
theorem Capture.PinsAgree.added {c d : Capture} {u : Incidents} {x : Option (Fin 8 × Nat)} {id : Nat} {g : Frame}
    (h : c.PinsAgree u x) (empty : c.frame? id = none) (slots : d.slots = insertKey id g c.slots) (unpinned : g.pins = 0)
    (place : g.place ≠ .detached) : d.PinsAgree u x := by
  have same : d.frame? id = some g := by unfold Capture.frame?; rw [slots]; exact lookupKey_insertKey_same id g _
  have other (j : Nat) (hj : j ≠ id) : d.frame? j = c.frame? j := by
    unfold Capture.frame?; rw [slots]; exact lookupKey_insertKey_other id j hj g _
  refine ⟨fun k n hn => ⟨(h.1 k n hn).1, fun j hj => ?_⟩, fun j e he => ?_⟩
  · have here : j ≠ id := by rintro rfl; exact h.not_held (.inl empty) hn hj
    rw [other j here]
    exact (h.1 k n hn).2 j hj
  · by_cases here : j = id
    · subst here
      obtain rfl := Option.some.inj (same.symm.trans he)
      exact ⟨unpinned.trans (Incidents.holders_eq_zero fun k n hn => h.not_held (.inl empty) hn).symm,
        fun det => (place det).elim, fun _ _ => unpinned⟩
    · exact h.2 j e (other j here ▸ he)

/-! ### Where frames stand (R30, R34) -/

/-- A list names each slot once, and each holds a frame of its line at its place. -/
def Capture.Lists (c : Capture) (p : Place) (i : Fin 8) (ids : List Nat) : Prop :=
  ids.Nodup ∧ ∀ id ∈ ids, c.holdsAt p i id = true

theorem Capture.holdsAt_iff {c : Capture} {p : Place} {i : Fin 8} {id : Nat} :
    c.holdsAt p i id = true ↔ ∃ f, c.frame? id = some f ∧ f.place = p ∧ f.line = i := by
  unfold Capture.holdsAt
  cases h : c.frame? id with
  | none => simp
  | some f => simp

/-- A frame stands at one place of one line. -/
theorem Capture.holdsAt_unique {c : Capture} {p q : Place} {i j : Fin 8} {id : Nat} (h : c.holdsAt p i id = true)
    (g : c.holdsAt q j id = true) : p = q ∧ i = j := by
  obtain ⟨f, frame, rfl, rfl⟩ := Capture.holdsAt_iff.mp h
  obtain ⟨f', frame', rfl, rfl⟩ := Capture.holdsAt_iff.mp g
  obtain rfl := Option.some.inj (frame.symm.trans frame')
  exact ⟨rfl, rfl⟩

theorem Capture.Lists.apart {c : Capture} {p q : Place} {i j : Fin 8} {ids others : List Nat} (h : c.Lists p i ids)
    (g : c.Lists q j others) (different : p ≠ q ∨ i ≠ j) {id : Nat} (hid : id ∈ ids) : id ∉ others := by
  intro again
  obtain ⟨place, line⟩ := Capture.holdsAt_unique (h.2 id hid) (g.2 id again)
  exact different.elim (· place) (· line)

/-- The frame of a slot keeps its line and place. -/
def Capture.Stays (c d : Capture) (id : Nat) : Prop :=
  ∀ f, c.frame? id = some f → ∃ g, d.frame? id = some g ∧ g.line = f.line ∧ g.place = f.place

theorem Capture.stays_of_same {c d : Capture} {id : Nat} (h : d.frame? id = c.frame? id) : c.Stays d id :=
  fun f frame => ⟨f, h.trans frame, rfl, rfl⟩

theorem Capture.Stays.holdsAt {c d : Capture} {id : Nat} (h : c.Stays d id) {p : Place} {i : Fin 8}
    (held : c.holdsAt p i id = true) : d.holdsAt p i id = true := by
  obtain ⟨f, frame, rfl, rfl⟩ := Capture.holdsAt_iff.mp held
  obtain ⟨g, frame', line, place⟩ := h f frame
  exact Capture.holdsAt_iff.mpr ⟨g, frame', place, line⟩

theorem Capture.Lists.sublist {c d : Capture} {p : Place} {i : Fin 8} {ids fewer : List Nat} (h : c.Lists p i ids)
    (sub : fewer.Sublist ids) (stays : ∀ id ∈ fewer, c.Stays d id) : d.Lists p i fewer :=
  ⟨h.1.sublist sub, fun id hid => (stays id hid).holdsAt (h.2 id (sub.subset hid))⟩

theorem Capture.Lists.append_singleton {c : Capture} {p : Place} {i : Fin 8} {ids : List Nat} (h : c.Lists p i ids)
    {id : Nat} (new : id ∉ ids) (held : c.holdsAt p i id = true) : c.Lists p i (ids ++ [id]) := by
  refine ⟨List.nodup_append.mpr ⟨h.1, List.nodup_singleton id, ?_⟩, fun j hj => ?_⟩
  · intro a ha b hb
    obtain rfl := List.mem_singleton.mp hb
    rintro rfl
    exact new ha
  · obtain old | here := List.mem_append.mp hj
    · exact h.2 j old
    · rwa [List.mem_singleton.mp here]

/-- The list of a line that gives its slots a place, the slots in reception being given. -/
def Capture.named (c : Capture) (reception : Fin 8 → List Nat) (p : Place) (i : Fin 8) : List Nat :=
  match p with
  | .inHistory => c.hist[i]
  | .handedOut => c.handed[i]
  | .inReception => reception i
  | .detached => []

/-- The lists of all lines name each slot once at most, and it has the place of the list that names it. -/
def Capture.Placed (c : Capture) (reception : Fin 8 → List Nat) : Prop :=
  risingKeys c.slots = true ∧ ∀ p i, c.Lists p i (c.named reception p i)

/-- A slot is named in one list of one line. -/
theorem Capture.Placed.named_unique {c : Capture} {r : Fin 8 → List Nat} (h : c.Placed r) {p q : Place} {i j : Fin 8}
    {id : Nat} (hp : id ∈ c.named r p i) (hq : id ∈ c.named r q j) : p = q ∧ i = j :=
  Capture.holdsAt_unique ((h.2 p i).2 id hp) ((h.2 q j).2 id hq)

theorem Capture.Placed.frame {c : Capture} {r : Fin 8 → List Nat} (h : c.Placed r) {p : Place} {i : Fin 8} {id : Nat}
    (hid : id ∈ c.named r p i) : ∃ f, c.frame? id = some f ∧ f.place = p ∧ f.line = i :=
  Capture.holdsAt_iff.mp ((h.2 p i).2 id hid)

/-- Lists grow shorter, and the frames that they still name stay. -/
theorem Capture.Placed.sublists {c d : Capture} {r q : Fin 8 → List Nat} (h : c.Placed r)
    (rising : risingKeys d.slots = true) (lists : ∀ p i, (d.named q p i).Sublist (c.named r p i))
    (stays : ∀ p i, ∀ id ∈ d.named q p i, c.Stays d id) : d.Placed q :=
  ⟨rising, fun p i => (h.2 p i).sublist (lists p i) (stays p i)⟩

theorem Capture.named_setHist (c : Capture) (r : Fin 8 → List Nat) (i : Fin 8) (l : List Nat) (p : Place) (j : Fin 8) :
    ({ c with hist := c.hist.set i l } : Capture).named r p j
      = if p = .inHistory ∧ j = i then l else c.named r p j := by
  cases p
  case inHistory => exact (vector_get_set c.hist i j l).trans (if_congr (by simp) rfl rfl)
  all_goals exact (if_neg fun h => Place.noConfusion h.1).symm

theorem Capture.named_setHanded (c : Capture) (r : Fin 8 → List Nat) (i : Fin 8) (l : List Nat) (p : Place) (j : Fin 8) :
    ({ c with handed := c.handed.set i l } : Capture).named r p j
      = if p = .handedOut ∧ j = i then l else c.named r p j := by
  cases p
  case handedOut => exact (vector_get_set c.handed i j l).trans (if_congr (by simp) rfl rfl)
  all_goals exact (if_neg fun h => Place.noConfusion h.1).symm

end Sys2Proof.Machine
end

section
/-! PROOFS. What an event may do to capture memory, lines and incidents without losing a frame, a page or a pin: the
notion that every step is shown to meet (R25, R28, R30, R34, R36, R71, R97). -/

namespace Sys2Proof.Machine

/-! ### Frames that are changed or left with no place -/

theorem Capture.modFrame_only (c : Capture) (id : Nat) (g : Frame → Frame) :
    c.modFrame id g = { c with slots := (c.modFrame id g).slots } := by
  unfold Capture.modFrame; split <;> rfl

theorem Capture.modFrame_frame_same (c : Capture) (id : Nat) (g : Frame → Frame) :
    (c.modFrame id g).frame? id = (c.frame? id).map g := by
  unfold Capture.modFrame
  split
  next f frame => rw [frame]; exact lookupKey_insertKey_same id _ _
  next empty => rw [empty]; rfl

theorem Capture.modFrame_frame_other (c : Capture) (id j : Nat) (h : j ≠ id) (g : Frame → Frame) :
    (c.modFrame id g).frame? j = c.frame? j := by
  unfold Capture.modFrame
  split
  · exact lookupKey_insertKey_other id j h _ _
  · rfl

theorem Capture.modFrame_rising {c : Capture} (h : risingKeys c.slots = true) (id : Nat) (g : Frame → Frame) :
    risingKeys (c.modFrame id g).slots = true := by
  unfold Capture.modFrame
  split
  · exact insertKey_rising id _ _ h
  · exact h

theorem Capture.modFrame_pages {c : Capture} (h : c.PagesWhole) (id : Nat) {g : Frame → Frame}
    (pages : ∀ f, (g f).pages = f.pages) : (c.modFrame id g).PagesWhole := by
  unfold Capture.modFrame
  split
  next f frame => exact Capture.pages_replaced frame rfl (by rw [pages]; exact .refl _) h
  next => exact h

/-- The change of a frame keeps pin counts in agreement when it keeps its pins, and its place or gives it one in a
list. -/
theorem Capture.modFrame_pins {c : Capture} {u : Incidents} {x : Option (Fin 8 × Nat)} (h : c.PinsAgree u x) (id : Nat)
    {g : Frame → Frame} (pins : ∀ f, (g f).pins = f.pins)
    (place : ∀ f, (g f).place = f.place ∨ (g f).place = .inHistory ∨ (g f).place = .handedOut) :
    (c.modFrame id g).PinsAgree u x := by
  unfold Capture.modFrame
  split
  next f frame =>
    obtain ⟨-, detached, reception⟩ := h.2 id f frame
    refine h.replaced frame rfl (pins f) ?_ ?_
    · obtain same | hist | handed := place f
      · rw [same, pins]; exact detached
      · rw [hist]; exact fun d => Place.noConfusion d
      · rw [handed]; exact fun d => Place.noConfusion d
    · obtain same | hist | handed := place f
      · rw [same, pins]; exact reception
      · rw [hist]; exact fun d => Place.noConfusion d
      · rw [handed]; exact fun d => Place.noConfusion d
  next => exact h

theorem Capture.leave_rising {c : Capture} (h : risingKeys c.slots = true) (id : Nat) :
    risingKeys (c.leave id).slots = true := by
  unfold Capture.leave
  split
  next f frame =>
    split
    · rw [Capture.freeFrame_of_frame frame]; exact eraseKey_rising id _ h
    · exact insertKey_rising id _ _ h
  next => exact h

theorem Capture.leave_pages {c : Capture} (h : c.PagesWhole) (id : Nat) : (c.leave id).PagesWhole := by
  unfold Capture.leave
  split
  next f frame =>
    split
    · rw [Capture.freeFrame_of_frame frame]; exact Capture.pages_removed frame rfl rfl h
    · exact Capture.pages_replaced frame rfl (.refl _) h
  next => exact h

/-- A frame that leaves its lists is freed unpinned, and DETACHED pinned (R28). -/
theorem Capture.leave_pins {c : Capture} {u : Incidents} {x : Option (Fin 8 × Nat)} (h : c.PinsAgree u x) (id : Nat) :
    (c.leave id).PinsAgree u x := by
  unfold Capture.leave
  split
  next f frame =>
    split
    next unpinned => rw [Capture.freeFrame_of_frame frame]; exact h.removed frame rfl unpinned
    next pinned => exact h.replaced frame rfl rfl (fun _ => pinned) (fun place => Place.noConfusion place)
  next => exact h

theorem Capture.foldl_leave_rising (ids : List Nat) {c : Capture} (h : risingKeys c.slots = true) :
    risingKeys (ids.foldl Capture.leave c).slots = true := by
  induction ids generalizing c with
  | nil => exact h
  | cons a rest ih => exact ih (Capture.leave_rising h a)

theorem Capture.foldl_leave_pages (ids : List Nat) {c : Capture} (h : c.PagesWhole) :
    (ids.foldl Capture.leave c).PagesWhole := by
  induction ids generalizing c with
  | nil => exact h
  | cons a rest ih => exact ih (Capture.leave_pages h a)

theorem Capture.foldl_leave_pins (ids : List Nat) {c : Capture} {u : Incidents} {x : Option (Fin 8 × Nat)}
    (h : c.PinsAgree u x) : (ids.foldl Capture.leave c).PinsAgree u x := by
  induction ids generalizing c with
  | nil => exact h
  | cons a rest ih => exact ih (Capture.leave_pins h a)

/-- A frame left with no place is not in reception. -/
theorem Capture.foldl_leave_place (ids : List Nat) (c : Capture) {id : Nat} (h : id ∈ ids) {f : Frame}
    (frame : (ids.foldl Capture.leave c).frame? id = some f) : f.place ≠ .inReception := by
  rw [Capture.foldl_leave_frame_mem ids c id h] at frame
  obtain ⟨g, -, left⟩ := Option.bind_eq_some_iff.mp frame
  unfold Frame.left at left
  split at left
  · exact (Option.some_ne_none f left.symm).elim
  · rw [← Option.some.inj left]
    exact Place.noConfusion

/-! ### The invariants of a state, with a frame under classification -/

/-- The slot of the frame in reception. -/
def Line.heldSlot (l : Line) : Option Nat := l.current.bind fun f => f.slot

/-- The frame under classification, of a line. -/
def classedOf (x : Option (Fin 8 × Nat)) (i : Fin 8) : List Nat :=
  match x with
  | some (j, id) => if j = i then [id] else []
  | none => []

@[simp] theorem classedOf_none (i : Fin 8) : classedOf none i = [] := rfl
@[simp] theorem classedOf_same (i : Fin 8) (id : Nat) : classedOf (some (i, id)) i = [id] := if_pos rfl

theorem classedOf_other {i j : Fin 8} (h : j ≠ i) (id : Nat) : classedOf (some (i, id)) j = [] := if_neg (Ne.symm h)

theorem isClassed_none (id : Nat) : ¬ IsClassed none id := fun ⟨_, h⟩ => Option.some_ne_none _ h.symm

theorem isClassed_some {i : Fin 8} {id j : Nat} : IsClassed (some (i, id)) j ↔ j = id := by
  constructor
  · rintro ⟨k, h⟩
    exact (congrArg Prod.snd (Option.some.inj h)).symm
  · rintro rfl
    exact ⟨i, rfl⟩

/-- The slots of a line's frames that await classification, and of the one in reception. -/
def Line.unplaced (l : Line) : List Nat := l.awaiting ++ l.heldSlot.toList

/-- The slots of a line's frames without a place in a list: under classification, awaiting it, in reception. -/
def State.reception (s : State) (x : Option (Fin 8 × Nat)) (i : Fin 8) : List Nat :=
  classedOf x i ++ s.lines[i].unplaced

/-- The frames are placed once, that under classification with those that await it. -/
def State.Placed (s : State) (x : Option (Fin 8 × Nat)) : Prop := s.capture.Placed (s.reception x)

theorem State.framesPlaced_iff (s : State) : s.framesPlaced ↔ s.Placed none := by
  have named (i : Fin 8) : s.namedSlots i = s.capture.hist[i] ++ (s.capture.handed[i] ++ s.reception none i) := by
    simp only [State.namedSlots, State.reception, Line.unplaced, classedOf_none, List.nil_append, List.append_assoc]
    rfl
  refine and_congr_right fun _ => ⟨fun ⟨once, held⟩ => ?_, fun lists => ⟨?_, fun i => ?_⟩⟩
  · have own (i : Fin 8) := (List.nodup_flatMap.mp once).1 i (List.mem_finRange i)
    simp only [named, List.nodup_append] at own
    intro p i
    obtain ⟨hist, ⟨handed, rec, -⟩, -⟩ := own i
    obtain ⟨inHist, inHanded, inRec⟩ := held i
    cases p
    case inHistory => exact ⟨hist, inHist⟩
    case handedOut => exact ⟨handed, inHanded⟩
    case inReception => exact ⟨rec, inRec⟩
    case detached => exact ⟨List.nodup_nil, fun id h => (List.not_mem_nil h).elim⟩
  · have apart {p q : Place} {i j : Fin 8} (different : p ≠ q ∨ i ≠ j) {a b : Nat}
        (ha : a ∈ s.capture.named (s.reception none) p i) (hb : b ∈ s.capture.named (s.reception none) q j) : a ≠ b :=
      fun e => (lists p i).apart (lists q j) different ha (e ▸ hb)
    have placeOf (i : Fin 8) {id : Nat} (hid : id ∈ s.namedSlots i) :
        ∃ p, id ∈ s.capture.named (s.reception none) p i := by
      rw [named, List.mem_append, List.mem_append] at hid
      obtain hist | handed | rec := hid
      · exact ⟨.inHistory, hist⟩
      · exact ⟨.handedOut, handed⟩
      · exact ⟨.inReception, rec⟩
    refine List.nodup_flatMap.mpr ⟨fun i _ => ?_, ?_⟩
    · rw [named, List.nodup_append, List.nodup_append]
      refine ⟨(lists .inHistory i).1, ⟨(lists .handedOut i).1, (lists .inReception i).1, fun a ha b hb => ?_⟩,
        fun a ha b hb => ?_⟩
      · exact apart (p := .handedOut) (q := .inReception) (.inl Place.noConfusion) ha hb
      · obtain handed | rec := List.mem_append.mp hb
        · exact apart (p := .inHistory) (q := .handedOut) (.inl Place.noConfusion) ha handed
        · exact apart (p := .inHistory) (q := .inReception) (.inl Place.noConfusion) ha rec
    · refine (List.nodup_finRange 8).imp fun {i j} different id hi hj => ?_
      obtain ⟨p, atI⟩ := placeOf i hi
      obtain ⟨q, atJ⟩ := placeOf j hj
      exact apart (.inr different) atI atJ rfl
  · exact ⟨(lists .inHistory i).2, (lists .handedOut i).2, (lists .inReception i).2⟩

theorem State.pinsAgree_iff (s : State) : s.pinsAgree ↔ s.capture.PinsAgree s.inc none := by
  refine and_congr_right fun _ => forall_congr' fun id => forall_congr' fun f => forall_congr' fun _ => ?_
  refine and_congr_right fun _ => and_congr_right fun _ => ?_
  exact ⟨fun h place _ => h place, fun h place => h place (isClassed_none id)⟩

/-- What every event keeps, from a state with a frame under classification, or none, to another: memories in canonical
form; and when the frames are placed once, they stay so, and so do pages and pins. -/
def State.Keeps (s : State) (x : Option (Fin 8 × Nat)) (t : State) (y : Option (Fin 8 × Nat)) : Prop :=
  (s.memoriesCanonical = true → t.memoriesCanonical = true)
    ∧ (s.Placed x → t.Placed y ∧ (s.capture.PagesWhole → t.capture.PagesWhole)
        ∧ (s.capture.PinsAgree s.inc x → t.capture.PinsAgree t.inc y))

theorem State.Keeps.refl (s : State) (x : Option (Fin 8 × Nat)) : s.Keeps x s x := ⟨id, fun h => ⟨h, id, id⟩⟩

theorem State.Keeps.trans {s t u : State} {x y z : Option (Fin 8 × Nat)} (h : s.Keeps x t y) (g : t.Keeps y u z) :
    s.Keeps x u z := by
  refine ⟨fun m => g.1 (h.1 m), fun placed => ?_⟩
  obtain ⟨placed, pages, pins⟩ := h.2 placed
  obtain ⟨placed', pages', pins'⟩ := g.2 placed
  exact ⟨placed', fun p => pages' (pages p), fun p => pins' (pins p)⟩

theorem State.memoriesCanonical_iff (s : State) :
    s.memoriesCanonical = true ↔ s.capture.mem.wf = true ∧ ∀ x : Fin 64, s.store.sectors[x].mem.wf = true := by
  unfold State.memoriesCanonical
  rw [Bool.and_eq_true, List.all_eq_true]
  exact and_congr_right fun _ => ⟨fun h x => h x (List.mem_finRange x), fun h x _ => h x⟩

/-! ### Events that leave the frames where they are -/

/-- A line keeps its frames, or forgets some. -/
def Line.SameFrames (l m : Line) : Prop := m.unplaced.Sublist l.unplaced

theorem Line.SameFrames.refl (l : Line) : l.SameFrames l := List.Sublist.refl _

theorem Line.SameFrames.trans {l m n : Line} (h : l.SameFrames m) (g : m.SameFrames n) : l.SameFrames n :=
  List.Sublist.trans g h

theorem Line.sameFrames_of {l m : Line} (awaiting : m.awaiting = l.awaiting)
    (slot : m.heldSlot = none ∨ m.heldSlot = l.heldSlot) : l.SameFrames m := by
  unfold Line.SameFrames Line.unplaced
  rw [awaiting]
  refine (List.Sublist.refl _).append ?_
  obtain none_held | same := slot
  · rw [none_held]; exact List.nil_sublist _
  · rw [same]

/-- The frames of the incident in a slot. -/
def Incidents.framesOf (u : Incidents) (k : Fin 4) : Option (List Nat) := (u.table[k]).map fun n => n.frames

theorem Incidents.holders_congr {u v : Incidents} (h : ∀ k, v.framesOf k = u.framesOf k) (id : Nat) :
    v.holders id = u.holders id := by
  have same (w : Incidents) (k : Fin 4) : ((w.table[k]).any fun n => decide (id ∈ n.frames))
      = (w.framesOf k).any fun ids => decide (id ∈ ids) := by
    unfold Incidents.framesOf
    cases w.table[k] <;> rfl
  unfold Incidents.holders
  simp only [same, h]

theorem Capture.PinsAgree.congr {c d : Capture} {u v : Incidents} {x : Option (Fin 8 × Nat)} (h : c.PinsAgree u x)
    (slots : d.slots = c.slots) (frames : ∀ k, v.framesOf k = u.framesOf k) : d.PinsAgree v x := by
  have same (id : Nat) : d.frame? id = c.frame? id := congrArg (lookupKey id) slots
  refine ⟨fun k n hn => ?_, fun id f frame => ?_⟩
  · have here : u.framesOf k = some n.frames := by
      rw [← frames k, Incidents.framesOf, hn]
      rfl
    obtain ⟨m, hm, hf⟩ := Option.map_eq_some_iff.mp here
    simp only [same, ← hf]
    exact h.1 k m hm
  · rw [Incidents.holders_congr frames]
    exact h.2 id f (same id ▸ frame)

/-- An event moves no frame, claims no page and pins nothing; what it writes in memories keeps them canonical. -/
structure State.SameFrames (s t : State) : Prop where
  free : t.capture.free = s.capture.free
  slots : t.capture.slots = s.capture.slots
  hist : t.capture.hist = s.capture.hist
  handed : t.capture.handed = s.capture.handed
  mem : s.capture.mem.wf = true → t.capture.mem.wf = true
  lines : ∀ i : Fin 8, s.lines[i].SameFrames t.lines[i]
  incidents : ∀ k, t.inc.framesOf k = s.inc.framesOf k
  sectors : ∀ x : Fin 64, s.store.sectors[x].mem.wf = true → t.store.sectors[x].mem.wf = true

theorem State.SameFrames.refl (s : State) : s.SameFrames s :=
  ⟨rfl, rfl, rfl, rfl, id, fun _ => .refl _, fun _ => rfl, fun _ => id⟩

theorem State.SameFrames.trans {s t u : State} (h : s.SameFrames t) (g : t.SameFrames u) : s.SameFrames u :=
  ⟨g.free.trans h.free, g.slots.trans h.slots, g.hist.trans h.hist, g.handed.trans h.handed, fun m => g.mem (h.mem m),
    fun i => (h.lines i).trans (g.lines i), fun k => (g.incidents k).trans (h.incidents k),
    fun x m => g.sectors x (h.sectors x m)⟩

theorem State.reception_sublist {s t : State} {x : Option (Fin 8 × Nat)} {i : Fin 8}
    (h : s.lines[i].SameFrames t.lines[i]) : (t.reception x i).Sublist (s.reception x i) :=
  (List.Sublist.refl _).append h

theorem State.SameFrames.keeps {s t : State} (h : s.SameFrames t) (x : Option (Fin 8 × Nat)) : s.Keeps x t x := by
  refine ⟨fun m => ?_, fun placed => ⟨?_, fun whole => ?_, fun pins => pins.congr h.slots h.incidents⟩⟩
  · rw [State.memoriesCanonical_iff] at m ⊢
    exact ⟨h.mem m.1, fun x => h.sectors x (m.2 x)⟩
  · have stays (id : Nat) : s.capture.Stays t.capture id :=
      Capture.stays_of_same (congrArg (lookupKey id) h.slots)
    refine Capture.Placed.sublists placed (h.slots ▸ placed.1) (fun p i => ?_) fun _ _ id _ => stays id
    cases p
    case inHistory => simp only [Capture.named, h.hist, List.Sublist.refl]
    case handedOut => simp only [Capture.named, h.handed, List.Sublist.refl]
    case inReception => exact State.reception_sublist (h.lines i)
    case detached => exact .refl _
  · unfold Capture.PagesWhole
    rw [h.free, h.slots]
    exact whole

/-- Only the link, the clocks, the match unit, the records and what else holds no frame differ. -/
theorem State.SameFrames.of_eq {s t : State} (capture : t.capture = s.capture) (lines : t.lines = s.lines)
    (table : t.inc.table = s.inc.table) (sectors : ∀ x : Fin 64, t.store.sectors[x].mem = s.store.sectors[x].mem) :
    s.SameFrames t := by
  refine ⟨by rw [capture], by rw [capture], by rw [capture], by rw [capture], by rw [capture]; exact id, fun i => ?_,
    fun k => ?_, fun x => ?_⟩
  · rw [lines]; exact .refl _
  · unfold Incidents.framesOf; rw [table]
  · rw [sectors]; exact id

theorem State.sameFrames_modLine (s : State) (i : Fin 8) {f : Line → Line}
    (h : s.lines[i].SameFrames (f s.lines[i])) : s.SameFrames (s.modLine i f) := by
  refine ⟨rfl, rfl, rfl, rfl, id, fun j => ?_, fun _ => rfl, fun _ => id⟩
  by_cases here : j = i
  · subst here; rw [State.modLine_same]; exact h
  · rw [State.modLine_other s i j here]; exact .refl _

theorem State.sameFrames_modSector (s : State) (x : Fin 64) {f : Sector → Sector}
    (h : s.store.sectors[x].mem.wf = true → (f s.store.sectors[x]).mem.wf = true) : s.SameFrames (s.modSector x f) := by
  refine ⟨rfl, rfl, rfl, rfl, id, fun _ => .refl _, fun _ => rfl, fun y => ?_⟩
  by_cases here : y = x
  · subst here; rw [State.modSector_same]; exact h
  · rw [State.modSector_other s x y here]; exact id

theorem State.sameFrames_setIncident (s : State) (k : Fin 4) {i n : Incident} (h : s.inc.table[k] = some i)
    (frames : n.frames = i.frames) : s.SameFrames (s.setIncident k (some n)) := by
  refine ⟨rfl, rfl, rfl, rfl, id, fun _ => .refl _, fun j => ?_, fun _ => id⟩
  have table : (s.setIncident k (some n)).inc.table[j] = if j = k then some n else s.inc.table[j] :=
    vector_get_set s.inc.table k j (some n)
  unfold Incidents.framesOf
  rw [table]
  split
  next here => subst here; rw [h]; exact congrArg some frames
  next => rfl

theorem State.sameFrames_notify (s : State) (n : Notice) : s.SameFrames (s.notify n) :=
  .of_eq rfl rfl rfl fun _ => rfl

end Sys2Proof.Machine
end

section
/-! PROOFS. What leaves every frame where it is: notices, the end of an event, the arbiter and the commit (R42 to R44,
R93, R107, R125 to R135). -/

namespace Sys2Proof.Machine

/-! ### The end of an event -/

theorem Line.sameFrames_pressed (l : Line) (before on : Bool) : l.SameFrames (l.pressed before on) :=
  Line.sameFrames_of (l.pressed_awaiting before on) (.inr (by unfold Line.heldSlot; rw [Line.pressed_current]))

theorem State.sameFrames_setPressure (s : State) (on : Bool) : s.SameFrames (s.setPressure on) := by
  have lines (i : Fin 8) : s.lines[i].SameFrames (s.setPressure on).lines[i] := by
    rw [State.setPressure_line]
    exact Line.sameFrames_pressed _ _ _
  rw [State.setPressure_only] at lines ⊢
  exact ⟨rfl, rfl, rfl, rfl, id, lines, fun _ => rfl, fun _ => id⟩

theorem State.sameFrames_announce (old s : State) : s.SameFrames (State.announce old s) := by
  rw [State.announce_only]
  exact .of_eq rfl rfl rfl fun _ => rfl

theorem State.sameFrames_conclude (old s : State) : s.SameFrames (State.conclude old s) := by
  unfold State.conclude
  rw [State.evalPressure_eq]
  exact (s.sameFrames_setPressure _).trans (State.sameFrames_announce old _)

/-! ### The commit (R125 to R135) -/

theorem State.sameFrames_setCommit (s : State) (c : Commit) : s.SameFrames (s.setCommit c) :=
  .of_eq rfl rfl rfl fun _ => rfl

theorem State.sameFrames_startErase (s : State) (x : Fin 64) (c : Cause) : s.SameFrames (s.startErase x c) :=
  (s.sameFrames_modSector x (f := Sector.startErase) id).trans (.of_eq rfl rfl rfl fun _ => rfl)

theorem State.sameFrames_whenServed (s : State) (c : Commit) (f : State → State) (h : s.SameFrames (f s)) :
    s.SameFrames (s.whenServed c f) := by
  unfold State.whenServed
  split
  · exact h
  · exact s.sameFrames_setCommit _

theorem State.sameFrames_commitOpens (s : State) (c : Commit) (x : Fin 64) : s.SameFrames (s.commitOpens c x) :=
  .of_eq rfl rfl rfl fun _ => rfl

theorem State.sameFrames_commitOverwrites (s : State) (c : Commit) (x : Fin 64) :
    s.SameFrames (s.commitOverwrites c x) := by
  unfold State.commitOverwrites
  refine State.SameFrames.trans ?_ (State.sameFrames_notify _ _)
  refine State.SameFrames.trans ?_ (State.sameFrames_startErase _ _ _)
  refine State.SameFrames.trans ?_ (State.sameFrames_modSector _ _ ?_)
  · exact .of_eq rfl rfl rfl fun _ => rfl
  · exact id

theorem State.sameFrames_endCommit (s : State) : s.SameFrames s.endCommit := .of_eq rfl rfl rfl fun _ => rfl

theorem State.sameFrames_noRoom (s : State) (k : Fin 4) (c : Commit) (r : FullReason) :
    s.SameFrames (s.noRoom k c r) := by
  unfold State.noRoom
  dsimp only
  split <;> exact .of_eq rfl rfl rfl fun _ => rfl

theorem State.sameFrames_overwriteOr (s : State) (k : Fin 4) (c : Commit) (r : FullReason) :
    s.SameFrames (s.overwriteOr k c r) := by
  unfold State.overwriteOr
  split
  · exact s.sameFrames_whenServed c _ (s.sameFrames_commitOverwrites c _)
  · exact s.sameFrames_noRoom k c r

theorem State.sameFrames_startRecordUnit (s : State) (i : Incident) (c : Commit) (p : Programming) :
    s.SameFrames (s.startRecordUnit i c p) := by
  unfold State.startRecordUnit
  dsimp only
  split <;> exact .of_eq rfl rfl rfl fun _ => rfl

theorem State.sameFrames_unitBoundary (s : State) (k : Fin 4) (c : Commit) (p : Programming) :
    s.SameFrames (s.unitBoundary k c p) := by
  unfold State.unitBoundary
  split
  · exact .refl s
  · split
    · exact .of_eq rfl rfl rfl fun _ => rfl
    · exact s.sameFrames_startRecordUnit _ c p

theorem State.sameFrames_placeRecord (s : State) (k : Fin 4) (c : Commit) (x : Fin 64) (o : Nat) :
    s.SameFrames (s.placeRecord k c x o) := by
  unfold State.placeRecord
  split
  · exact .refl s
  next i hi =>
    refine State.SameFrames.trans ?_ (State.sameFrames_whenServed _ _ _ (State.sameFrames_startRecordUnit _ _ _ _))
    refine (s.sameFrames_setIncident k (n := { i with state := .committing, serial := some s.records.nextSerial }) hi
      rfl).trans ?_
    exact .of_eq rfl rfl rfl fun _ => rfl

theorem State.sameFrames_findSector (s : State) (k : Fin 4) (c : Commit) : s.SameFrames (s.findSector k c) := by
  unfold State.findSector
  split
  · exact s.sameFrames_whenServed c _ (s.sameFrames_commitOpens c _)
  · exact s.sameFrames_overwriteOr k c .sector

@[simp] theorem Sector.settle_mem (v : Sector) : v.settle.mem = v.mem := by
  unfold Sector.settle; split <;> rfl

@[simp] theorem Sector.close_mem (v : Sector) : v.close.mem = v.mem := by
  unfold Sector.close
  split
  · rw [Sector.settle_mem]
  · rfl

theorem State.sameFrames_closeSector (s : State) (x : Fin 64) : s.SameFrames (s.modSector x Sector.close) :=
  s.sameFrames_modSector x (by rw [Sector.close_mem]; exact id)

theorem State.sameFrames_reserve (s : State) (k : Fin 4) (c : Commit) : s.SameFrames (s.reserve k c) := by
  unfold State.reserve
  split
  · exact s.sameFrames_noRoom k c .serials
  · split
    · exact s.sameFrames_overwriteOr k c .index
    · split
      · split
        · exact s.sameFrames_placeRecord k c _ _
        · exact (s.sameFrames_closeSector _).trans (State.sameFrames_findSector _ k c)
      · exact s.sameFrames_findSector k c

theorem State.sameFrames_recheck (s : State) (c : Commit) : s.SameFrames (s.recheck c) := by
  unfold State.recheck
  split
  · exact s.sameFrames_endCommit
  · exact s.sameFrames_reserve _ c

theorem State.sameFrames_continueRecord (s : State) (k : Fin 4) (c : Commit) (p : Programming) :
    s.SameFrames (s.continueRecord k c p) := s.sameFrames_whenServed _ _ (s.sameFrames_unitBoundary k c p)

theorem State.sameFrames_resumeCommit (s : State) : s.SameFrames s.resumeCommit := by
  unfold State.resumeCommit
  split
  · split
    · split
      · exact s.sameFrames_unitBoundary _ _ _
      · exact s.sameFrames_recheck _
    · exact .refl s
  · exact .refl s

/-! ### The arbiter (R107) -/

theorem State.sameFrames_grantCommit (s : State) : s.SameFrames s.grantCommit := by
  unfold State.grantCommit
  split
  · exact .refl s
  · split
    · exact .refl s
    · refine State.SameFrames.trans ?_ (State.sameFrames_reserve _ _ _)
      exact .of_eq rfl rfl rfl fun _ => rfl

theorem State.sameFrames_grantReclaim (s : State) : s.SameFrames s.grantReclaim := by
  unfold State.grantReclaim
  split
  · refine State.SameFrames.trans ?_ (State.sameFrames_startErase _ _ _)
    exact .of_eq rfl rfl rfl fun _ => rfl
  · exact .refl s

theorem State.sameFrames_grantItem (s : State) (i : WorkItem) (rest : List WorkItem) :
    s.SameFrames (s.grantItem i rest) := by
  unfold State.grantItem
  split
  · refine State.SameFrames.trans ?_ (State.sameFrames_startErase _ _ _)
    exact .of_eq rfl rfl rfl fun _ => rfl
  · exact .of_eq rfl rfl rfl fun _ => rfl

theorem State.sameFrames_arbitrate (s : State) : s.SameFrames s.arbitrate := by
  unfold State.arbitrate
  split
  · split
    · exact s.sameFrames_grantItem _ _
    · have commit : s.SameFrames (if s.records.full = none then s.grantCommit else s) := by
        split
        · exact s.sameFrames_grantCommit
        · exact .refl s
      refine commit.trans ?_
      generalize (if s.records.full = none then s.grantCommit else s) = t
      dsimp only
      split
      · exact t.sameFrames_grantReclaim
      · exact .refl t
  · exact .refl s

theorem State.sameFrames_settleEvent (old s : State) : s.SameFrames (State.settleEvent old s) :=
  (State.sameFrames_conclude old s).trans (State.sameFrames_arbitrate _)

/-! ### Operations of the array begin and end (R97 to R99, R102, R104, R105) -/

theorem State.sameFrames_programFault (s : State) (p : ProgramOp) : s.SameFrames (s.programFault p) :=
  .of_eq rfl rfl rfl fun _ => rfl

theorem State.sameFrames_leaveBytes (s : State) (p : ProgramOp) (bytes : List Byte) :
    s.SameFrames (s.leaveBytes p bytes) :=
  (s.sameFrames_modSector p.sector (f := fun x => { x with mem := x.mem.writeBytes p.offset bytes })
    (Memory.writeBytes_wf bytes _ p.offset)).trans (.of_eq rfl rfl rfl fun _ => rfl)

theorem State.sameFrames_eraseOver (s : State) (e : EraseOp) : s.SameFrames (s.eraseOver e) := by
  unfold State.eraseOver
  split
  · exact s.sameFrames_recheck _
  · exact .of_eq rfl rfl rfl fun _ => rfl

theorem State.sameFrames_endErase (s : State) (e : EraseOp) (passed : Bool) : s.SameFrames (s.endErase e passed) := by
  unfold State.endErase
  dsimp only
  refine State.SameFrames.trans (t := { s with store := { s.store with op := none } })
    (.of_eq rfl rfl rfl fun _ => rfl) ?_
  split
  · refine State.SameFrames.trans ?_ (State.sameFrames_eraseOver _ e)
    exact (State.sameFrames_modSector _ e.sector (f := Sector.erasedWell) fun _ => Memory.blank_wf).trans
      (.of_eq rfl rfl rfl fun _ => rfl)
  · refine State.SameFrames.trans ?_ (State.sameFrames_eraseOver _ e)
    exact (State.sameFrames_modSector _ e.sector (f := Sector.erasedBadly s.freeKey) fun _ => Memory.undef_wf _).trans
      (.of_eq rfl rfl rfl fun _ => rfl)

theorem State.sameFrames_endRead (s : State) : s.SameFrames s.endRead := by
  unfold State.endRead
  dsimp only
  refine State.SameFrames.trans ?_ (State.sameFrames_arbitrate _)
  refine State.SameFrames.trans ?_ (State.sameFrames_resumeCommit _)
  exact .of_eq rfl rfl rfl fun _ => rfl

/-! ### The scan (R149) -/

theorem Sector.settled_mem (w : ScanWork) (f : SectorFinding) (v : Sector) : (v.settled w f).mem = v.mem := by
  unfold Sector.settled
  split
  · rfl
  · rw [Sector.settle_mem]
  · dsimp only
    split
    · rfl
    · rw [Sector.settle_mem]

theorem Store.settleAll_mem (st : Store) (w : ScanWork) (x : Fin 64) :
    (st.settleAll w)[x].mem = st.sectors[x].mem := by
  unfold Store.settleAll
  rw [vmap_get]
  split
  · exact Sector.settled_mem w _ _
  · rfl

theorem State.sameFrames_finishScan (s : State) : s.SameFrames s.finishScan := by
  unfold State.finishScan
  dsimp only
  refine State.SameFrames.trans ?_ (State.sameFrames_arbitrate _)
  refine State.SameFrames.trans ?_ (State.sameFrames_notify _ _)
  exact .of_eq rfl rfl rfl fun x => Store.settleAll_mem s.store _ x

/-! ### Requests to the store (R110, R112, R113, R137) -/

theorem Sector.protect_mem (level : Protection) (v : Sector) : (v.protect level).mem = v.mem := by
  unfold Sector.protect
  split
  · rfl
  · split
    · rw [Sector.close_mem]
    · rw [Sector.settle_mem]

theorem setStorePolicyBody_sameFrames (policy : Byte) (s : State) : s.SameFrames (setStorePolicyBody policy s).1 := by
  unfold setStorePolicyBody
  split
  · exact .refl s
  · split
    · exact .refl s
    · refine State.SameFrames.trans ?_ (State.sameFrames_arbitrate _)
      exact .of_eq rfl rfl rfl fun _ => rfl

theorem setProtectionBody_sameFrames (sector level : Byte) (s : State) :
    s.SameFrames (setProtectionBody sector level s).1 := by
  unfold setProtectionBody
  split
  next x l _ _ =>
    unfold State.protect
    dsimp only
    split
    · exact .refl s
    · split
      · exact .refl s
      · split
        · exact .refl s
        · refine State.SameFrames.trans ?_ (State.sameFrames_arbitrate _)
          refine State.SameFrames.trans (s.sameFrames_modSector x (f := Sector.protect l) ?_) ?_
          · rw [Sector.protect_mem]; exact id
          · split <;> exact .of_eq rfl rfl rfl fun _ => rfl
  · exact .refl s

theorem State.modSector_mem (s : State) (x : Fin 64) {f : Sector → Sector} (h : ∀ v, (f v).mem = v.mem) (y : Fin 64) :
    (s.modSector x f).store.sectors[y].mem = s.store.sectors[y].mem := by
  by_cases here : y = x
  · subst here; rw [State.modSector_same, h]
  · rw [State.modSector_other s x y here]

theorem State.sameFrames_addErase (s : State) (x : Fin 64) : s.SameFrames (s.addErase x) := by
  refine .of_eq rfl rfl rfl fun y => ?_
  simp only [State.addErase]
  refine s.modSector_mem x (fun v => ?_) y
  exact v.close_mem

theorem eraseSectorBody_sameFrames (sector : Byte) (s : State) : s.SameFrames (eraseSectorBody sector s).1 := by
  unfold eraseSectorBody
  split
  next x _ =>
    unfold State.eraseSector
    dsimp only
    split_ifs
    case neg => exact (s.sameFrames_addErase x).trans (State.sameFrames_arbitrate _)
    all_goals exact .refl s
  · exact .refl s

theorem State.sameFrames_discard (s : State) (e : IndexEntry) : s.SameFrames (s.discard e) := by
  refine .of_eq rfl rfl rfl fun y => ?_
  simp only [State.discard]
  refine s.modSector_mem e.sector (fun v => ?_) y
  exact Sector.settle_mem _

theorem discardRecordBody_sameFrames (serial : Word) (s : State) : s.SameFrames (discardRecordBody serial s).1 := by
  unfold discardRecordBody
  split
  · exact .refl s
  · split
    · exact .refl s
    next e _ =>
      split_ifs
      · exact .refl s
      · exact .refl s
      · exact (s.sameFrames_discard e).trans (State.sameFrames_arbitrate _)

end Sys2Proof.Machine
end

section
/-! PROOFS. Moves of frames between lists, and frames that leave them (R28, R30 to R35, R38 to R40). -/

namespace Sys2Proof.Machine

/-! ### Frames that leave their lists -/

/-- Some frames of one list leave it for no other. -/
theorem State.keeps_leave {s t : State} {x y : Option (Fin 8 × Nat)} (c : Capture) (gone : List Nat) (q : Place)
    (j : Fin 8) (slots : c.slots = s.capture.slots) (free : c.free = s.capture.free) (mem : c.mem = s.capture.mem)
    (capture : t.capture = gone.foldl Capture.leave c)
    (lists : ∀ p i, (c.named (t.reception y) p i).Sublist (s.capture.named (s.reception x) p i))
    (were : ∀ id ∈ gone, id ∈ s.capture.named (s.reception x) q j)
    (own : (s.capture.named (s.reception x) q j).Nodup → ∀ id ∈ gone, id ∉ c.named (t.reception y) q j)
    (classed : ∀ id, IsClassed x id → ¬ IsClassed y id → id ∈ gone)
    (frames : ∀ k, t.inc.framesOf k = s.inc.framesOf k)
    (sectors : ∀ z : Fin 64, t.store.sectors[z].mem = s.store.sectors[z].mem) : s.Keeps x t y := by
  have only : t.capture = { c with free := t.capture.free, slots := t.capture.slots } :=
    capture ▸ Capture.foldl_leave_only gone c
  have named (p : Place) (i : Fin 8) : t.capture.named (t.reception y) p i = c.named (t.reception y) p i := by
    rw [only]
    cases p <;> rfl
  have frame (id : Nat) : c.frame? id = s.capture.frame? id := congrArg (lookupKey id) slots
  refine ⟨fun m => ?_, fun placed => ⟨?_, fun whole => ?_, fun pins => ?_⟩⟩
  · rw [State.memoriesCanonical_iff] at m ⊢
    refine ⟨?_, fun z => sectors z ▸ m.2 z⟩
    rw [only, mem]
    exact m.1
  · refine Capture.Placed.sublists placed ?_ (fun p i => named p i ▸ lists p i) fun p i id hid => ?_
    · rw [capture]
      exact Capture.foldl_leave_rising gone (slots ▸ placed.1)
    · rw [named] at hid
      have stayed : id ∉ gone := fun left => by
        obtain ⟨rfl, rfl⟩ := placed.named_unique (were id left) ((lists p i).subset hid)
        exact own (placed.2 _ _).1 id left hid
      refine Capture.stays_of_same ?_
      rw [capture, Capture.foldl_leave_frame_other gone c id stayed, frame]
  · rw [capture]
    refine Capture.foldl_leave_pages gone ?_
    unfold Capture.PagesWhole
    rw [slots, free]
    exact whole
  · have left : (gone.foldl Capture.leave c).PinsAgree t.inc x :=
      Capture.foldl_leave_pins gone (pins.congr slots frames)
    rw [capture]
    exact left.unclassed fun id was now f found => Capture.foldl_leave_place gone c (classed id was now) found

/-- Some frames of a history leave it. -/
theorem State.keeps_leave_hist (s : State) (x : Option (Fin 8 × Nat)) (i : Fin 8) (l gone : List Nat)
    (stay : l.Sublist s.capture.hist[i]) (were : ∀ id ∈ gone, id ∈ s.capture.hist[i])
    (apart : (s.capture.hist[i]).Nodup → ∀ id ∈ gone, id ∉ l) :
    s.Keeps x { s with capture := gone.foldl Capture.leave { s.capture with hist := s.capture.hist.set i l } } x := by
  refine State.keeps_leave { s.capture with hist := s.capture.hist.set i l } gone .inHistory i rfl rfl rfl rfl
    (fun p j => ?_) were (fun once id hid => ?_) (fun id was now => (now was).elim) (fun _ => rfl) fun _ => rfl
  · rw [Capture.named_setHist]
    split
    next here => obtain ⟨rfl, rfl⟩ := here; exact stay
    next => exact .refl _
  · rw [Capture.named_setHist, if_pos ⟨rfl, rfl⟩]
    exact apart once id hid

/-- The frames of a history leave it, oldest first (R38). -/
theorem State.keeps_emptyHistory (s : State) (i : Fin 8) :
    s.Keeps none { s with capture := s.capture.emptyHistory i } none :=
  s.keeps_leave_hist none i [] _ (List.nil_sublist _) (fun _ => id) fun _ _ _ => List.not_mem_nil

/-- The oldest frames of a handed-out list leave it (R35). -/
theorem State.keeps_release (s : State) (i : Fin 8) (n : Nat) :
    s.Keeps none { s with capture := s.capture.release i n } none := by
  refine State.keeps_leave { s.capture with handed := s.capture.handed.set i ((s.capture.handed[i]).drop n) }
    ((s.capture.handed[i]).take n) .handedOut i rfl rfl rfl rfl (fun p j => ?_)
    (fun id hid => (List.take_sublist n _).subset hid) (fun once id hid again => ?_) (fun id was now => (now was).elim)
    (fun _ => rfl) fun _ => rfl
  · rw [Capture.named_setHanded]
    split
    next here => obtain ⟨rfl, rfl⟩ := here; exact List.drop_sublist n _
    next => exact .refl _
  · rw [Capture.named_setHanded, if_pos ⟨rfl, rfl⟩] at again
    change (s.capture.handed[i]).Nodup at once
    rw [← List.take_append_drop n s.capture.handed[i]] at once
    exact (List.nodup_append.mp once).2.2 id hid id again rfl

theorem State.reception_classed (s : State) (i j : Fin 8) (id : Nat) :
    s.reception (some (i, id)) j = classedOf (some (i, id)) j ++ s.reception none j := by
  simp only [State.reception, classedOf_none, List.nil_append]

theorem State.mem_reception_classed (s : State) (i : Fin 8) (id : Nat) :
    id ∈ s.capture.named (s.reception (some (i, id))) .inReception i := by
  change id ∈ s.reception (some (i, id)) i
  rw [s.reception_classed, classedOf_same]
  exact List.mem_cons_self

/-- It is named among the frames in reception alone, and once. -/
theorem State.Placed.classed_apart {s : State} {i : Fin 8} {id : Nat} (h : s.Placed (some (i, id))) (p : Place) (j : Fin 8) :
    id ∉ s.capture.named (s.reception none) p j := by
  intro again
  have whole : id ∈ s.capture.named (s.reception (some (i, id))) p j := by
    cases p
    case inReception =>
      change id ∈ s.reception (some (i, id)) j
      rw [s.reception_classed]
      exact List.mem_append_right _ again
    all_goals exact again
  obtain ⟨rfl, rfl⟩ := Capture.Placed.named_unique h (s.mem_reception_classed i id) whole
  have once := (h.2 .inReception i).1
  change (s.reception (some (i, id)) i).Nodup at once
  rw [s.reception_classed, classedOf_same] at once
  exact (List.nodup_cons.mp once).1 again

theorem State.Placed.classed_frame {s : State} {i : Fin 8} {id : Nat} (h : s.Placed (some (i, id))) :
    ∃ f, s.capture.frame? id = some f ∧ f.place = .inReception ∧ f.line = i :=
  Capture.Placed.frame h (s.mem_reception_classed i id)

/-- The frame under classification is left with no place (R29, R33). -/
theorem State.keeps_leave_classed (s : State) (i : Fin 8) (id : Nat) :
    s.Keeps (some (i, id)) { s with capture := s.capture.leave id } none := by
  refine State.keeps_leave s.capture [id] .inReception i rfl rfl rfl rfl (fun p j => ?_) (fun j hj => ?_)
    (fun once j hj again => ?_) (fun j was _ => ?_) (fun _ => rfl) fun _ => rfl
  · cases p
    case inReception =>
      change (s.reception none j).Sublist (s.reception (some (i, id)) j)
      rw [s.reception_classed]
      exact List.sublist_append_right _ _
    all_goals exact .refl _
  · obtain rfl := List.mem_singleton.mp hj
    exact s.mem_reception_classed i j
  · obtain rfl := List.mem_singleton.mp hj
    change (s.reception (some (i, j)) i).Nodup at once
    rw [s.reception_classed, classedOf_same] at once
    exact (List.nodup_cons.mp once).1 again
  · exact List.mem_singleton.mpr (isClassed_some.mp was)

theorem State.keeps_dropClaim (s : State) (i : Fin 8) (id : Nat) :
    s.Keeps (some (i, id)) (s.dropClaim i id) none :=
  (s.keeps_leave_classed i id).trans ((State.sameFrames_modLine _ i (.refl _)).keeps none)

/-! ### The frame under classification -/

/-- The oldest frame that awaits classification leaves the frames awaiting it (R56). -/
theorem State.keeps_classed (s : State) (i : Fin 8) {id : Nat} {rest : List Nat}
    (awaiting : s.lines[i].awaiting = id :: rest) :
    s.Keeps none (s.modLine i fun l => { l with awaiting := rest }) (some (i, id)) := by
  have reception (j : Fin 8) : (s.modLine i fun l => { l with awaiting := rest }).reception (some (i, id)) j
      = s.reception none j := by
    unfold State.reception
    by_cases here : j = i
    · subst here
      unfold Line.unplaced
      rw [State.modLine_same, classedOf_same, classedOf_none, awaiting]
      rfl
    · rw [State.modLine_other s i j here, classedOf_other here, classedOf_none]
  refine ⟨fun m => m, fun placed => ⟨?_, fun whole => whole, fun pins => ?_⟩⟩
  · unfold State.Placed
    rw [show (s.modLine i fun l => { l with awaiting := rest }).reception (some (i, id)) = s.reception none from
      funext reception]
    exact placed
  · exact ⟨pins.1, fun j f frame => ⟨(pins.2 j f frame).1, (pins.2 j f frame).2.1, fun place _ =>
      (pins.2 j f frame).2.2 place (isClassed_none j)⟩⟩

/-- A frame is changed but for its line, pages, pins and place. -/
theorem State.keeps_modFrame (s : State) (x : Option (Fin 8 × Nat)) (id : Nat) {g : Frame → Frame}
    (line : ∀ f, (g f).line = f.line) (pages : ∀ f, (g f).pages = f.pages) (pins : ∀ f, (g f).pins = f.pins)
    (place : ∀ f, (g f).place = f.place) : s.Keeps x { s with capture := s.capture.modFrame id g } x := by
  have only := s.capture.modFrame_only id g
  have stays (j : Nat) : s.capture.Stays (s.capture.modFrame id g) j := by
    by_cases here : j = id
    · subst here
      intro f frame
      exact ⟨g f, by rw [Capture.modFrame_frame_same, frame]; rfl, line f, place f⟩
    · exact Capture.stays_of_same (Capture.modFrame_frame_other _ _ _ here _)
  refine ⟨fun m => ?_, fun placed => ⟨?_, fun whole => ?_, fun agree => ?_⟩⟩
  · rw [State.memoriesCanonical_iff] at m ⊢
    refine ⟨?_, m.2⟩
    rw [only]
    exact m.1
  · refine Capture.Placed.sublists placed (Capture.modFrame_rising placed.1 id g) (fun p i => ?_) fun _ _ j _ => stays j
    rw [only]
    cases p <;> exact .refl _
  · exact Capture.modFrame_pages whole id pages
  · exact Capture.modFrame_pins agree id pins fun f => .inl (place f)

/-- The frame under classification is appended to its line's history (R30). -/
theorem State.keeps_append (s : State) (i : Fin 8) (id : Nat) : s.Keeps (some (i, id)) (s.append i id) none := by
  refine State.Keeps.trans ?_ ((State.sameFrames_modLine _ i (.refl _)).keeps none)
  let c : Capture := { s.capture with hist := s.capture.hist.set i (s.capture.hist[i] ++ [id]) }
  let d := c.modFrame id fun f => { f with place := .inHistory }
  change s.Keeps (some (i, id)) { s with capture := d } none
  have only : d = { c with slots := d.slots } := c.modFrame_only id _
  have other (j : Nat) (here : j ≠ id) : d.frame? j = s.capture.frame? j := c.modFrame_frame_other id j here _
  refine ⟨fun m => ?_, fun placed => ⟨?_, fun whole => ?_, fun agree => ?_⟩⟩
  · rw [State.memoriesCanonical_iff] at m ⊢
    refine ⟨?_, m.2⟩
    change d.mem.wf = true
    rw [only]
    exact m.1
  · have named (p : Place) (j : Fin 8) : d.named (s.reception none) p j
        = if p = .inHistory ∧ j = i then s.capture.hist[i] ++ [id] else s.capture.named (s.reception none) p j := by
      rw [only]
      refine Eq.trans ?_ (s.capture.named_setHist (s.reception none) i _ p j)
      cases p <;> rfl
    have fewer (p : Place) (j : Fin 8) :
        (s.capture.named (s.reception none) p j).Sublist (s.capture.named (s.reception (some (i, id))) p j) := by
      cases p
      case inReception =>
        change (s.reception none j).Sublist (s.reception (some (i, id)) j)
        rw [s.reception_classed]
        exact List.sublist_append_right _ _
      all_goals exact .refl _
    have stays (j : Nat) (here : j ≠ id) : s.capture.Stays d j := Capture.stays_of_same (other j here)
    have old (p : Place) (j : Fin 8) : d.Lists p j (s.capture.named (s.reception none) p j) :=
      (placed.2 p j).sublist (fewer p j) fun a ha =>
        stays a fun e => placed.classed_apart p j (e ▸ ha)
    refine ⟨Capture.modFrame_rising (c := c) placed.1 id _, fun p j => ?_⟩
    change d.Lists p j (d.named (s.reception none) p j)
    rw [named]
    split
    next here =>
      obtain ⟨rfl, rfl⟩ := here
      refine Capture.Lists.append_singleton (old .inHistory j) (placed.classed_apart .inHistory j) ?_
      obtain ⟨f, frame, -, line⟩ := placed.classed_frame
      refine Capture.holdsAt_iff.mpr ⟨{ f with place := .inHistory }, ?_, rfl, line⟩
      exact (c.modFrame_frame_same id _).trans (congrArg _ frame)
    next => exact old p j
  · exact Capture.modFrame_pages (c := c) whole id fun _ => rfl
  · have appended : d.PinsAgree s.inc (some (i, id)) :=
      Capture.modFrame_pins (agree.congr (d := c) rfl fun _ => rfl) id (fun _ => rfl) fun _ => .inr (.inl rfl)
    refine appended.unclassed fun j was _ f frame => ?_
    obtain rfl := isClassed_some.mp was
    rw [c.modFrame_frame_same] at frame
    obtain ⟨g, -, rfl⟩ := Option.map_eq_some_iff.mp frame
    exact Place.noConfusion

/-! ### Keep claims (R30 to R33) -/

theorem State.keeps_keepRing (s : State) (i : Fin 8) (id : Nat) : s.Keeps (some (i, id)) (s.keepRing i id) none := by
  unfold State.keepRing
  split
  next oldest rest hist =>
    split
    · refine State.Keeps.trans ?_ (State.keeps_append _ i id)
      refine s.keeps_leave_hist (some (i, id)) i rest [oldest] (hist ▸ List.sublist_cons_self _ _) (fun j hj => ?_)
        fun once j hj => ?_
      · rw [hist, List.mem_singleton.mp hj]
        exact List.mem_cons_self
      · rw [hist] at once
        rw [List.mem_singleton.mp hj]
        exact (List.nodup_cons.mp once).1
    · exact s.keeps_append i id
  · exact s.keeps_append i id

theorem State.sameFrames_suspendAt (s : State) (i : Fin 8) (n : Nat) :
    s.SameFrames (s.modLine i fun l => l.suspendAt n) := by
  refine s.sameFrames_modLine i ?_
  unfold Line.suspendAt
  split
  · exact .refl _
  · exact .refl _

theorem State.keeps_keepFeed (s : State) (i : Fin 8) (id : Nat) : s.Keeps (some (i, id)) (s.keepFeed i id) none := by
  unfold State.keepFeed
  split
  · refine State.Keeps.trans ?_ (State.SameFrames.keeps (s := (s.append i id).modLine i fun l =>
      l.suspendAt (s.capture.total i + 1)) ?_ none)
    · exact (s.keeps_append i id).trans ((State.sameFrames_suspendAt _ i _).keeps none)
    · dsimp only
      split
      · exact State.sameFrames_notify _ _
      · exact .refl _
  · split
    · split
      · exact s.keeps_dropClaim i id
      · exact s.keeps_leave_classed i id
    next empty =>
      refine ⟨fun m => m, fun placed => ?_⟩
      obtain ⟨f, frame, -⟩ := placed.classed_frame
      exact (Option.some_ne_none f (frame.symm.trans empty)).elim

theorem State.keeps_keepClaim (s : State) (i : Fin 8) (id : Nat) : s.Keeps (some (i, id)) (s.keepClaim i id) none := by
  unfold State.keepClaim
  split
  · exact s.keeps_keepRing i id
  · exact s.keeps_keepFeed i id

/-! ### TAKE_FRAMES (R34) -/

/-- It concerns the slots alone. -/
theorem Capture.foldl_modFrame_only (g : Frame → Frame) (ids : List Nat) (c : Capture) :
    ∃ slots, ids.foldl (fun c id => c.modFrame id g) c = { c with slots := slots } := by
  induction ids generalizing c with
  | nil => exact ⟨c.slots, rfl⟩
  | cons a rest ih =>
    obtain ⟨slots, only⟩ := ih (c.modFrame a g)
    exact ⟨slots, only.trans (by rw [c.modFrame_only a g])⟩

/-- Several frames are changed, each as often as it is named. -/
theorem Capture.foldl_modFrame_frame (g : Frame → Frame) (ids : List Nat) (c : Capture) (id : Nat) :
    (ids.foldl (fun c id => c.modFrame id g) c).frame? id = (c.frame? id).map g^[ids.count id] := by
  induction ids generalizing c with
  | nil => simp
  | cons a rest ih =>
    rw [List.foldl_cons, ih (c.modFrame a g)]
    by_cases here : a = id
    · subst here
      rw [c.modFrame_frame_same, List.count_cons_self, Function.iterate_succ, Option.map_map]
    · rw [c.modFrame_frame_other a id (Ne.symm here), List.count_cons_of_ne here]

theorem Capture.foldl_modFrame_rising (g : Frame → Frame) (ids : List Nat) {c : Capture}
    (h : risingKeys c.slots = true) : risingKeys (ids.foldl (fun c id => c.modFrame id g) c).slots = true := by
  induction ids generalizing c with
  | nil => exact h
  | cons a rest ih => exact ih (Capture.modFrame_rising h a g)

theorem Capture.foldl_modFrame_pages {g : Frame → Frame} (pages : ∀ f, (g f).pages = f.pages) (ids : List Nat)
    {c : Capture} (h : c.PagesWhole) : (ids.foldl (fun c id => c.modFrame id g) c).PagesWhole := by
  induction ids generalizing c with
  | nil => exact h
  | cons a rest ih => exact ih (Capture.modFrame_pages h a pages)

/-- A frame that is handed out. -/
def Frame.handOut (f : Frame) : Frame := { f with place := .handedOut }

/-- Several frames take a place that is the same however often they take it. -/
theorem Capture.foldl_handOut_frame (ids : List Nat) (c : Capture) (id : Nat) :
    (ids.foldl (fun c id => c.modFrame id Frame.handOut) c).frame? id
      = if id ∈ ids then (c.frame? id).map Frame.handOut else c.frame? id := by
  have again (n : Nat) : Frame.handOut^[n + 1] = Frame.handOut := by
    induction n with
    | zero => rfl
    | succ n ih => rw [Function.iterate_succ', ih]; rfl
  rw [Capture.foldl_modFrame_frame]
  split
  next named =>
    obtain ⟨n, hn⟩ := Nat.exists_eq_succ_of_ne_zero (Nat.ne_of_gt (List.count_pos_iff.mpr named))
    rw [hn, Nat.succ_eq_add_one, again]
  next other =>
    rw [List.count_eq_zero_of_not_mem other, Function.iterate_zero, Option.map_id]
    rfl

theorem Capture.foldl_handOut_pins {u : Incidents} {x : Option (Fin 8 × Nat)} (ids : List Nat) {c : Capture}
    (h : c.PinsAgree u x) : (ids.foldl (fun c id => c.modFrame id Frame.handOut) c).PinsAgree u x := by
  induction ids generalizing c with
  | nil => exact h
  | cons a rest ih => exact ih (Capture.modFrame_pins h a (fun _ => rfl) fun _ => .inr (.inr rfl))

/-- Capture memory with the oldest frames of a history moved to the handed-out list (R34). -/
def Capture.taken (c : Capture) (i : Fin 8) (n : Nat) : Capture :=
  { c with
    slots := (((c.hist[i]).take n).foldl (fun c id => c.modFrame id Frame.handOut) c).slots
    hist := c.hist.set i ((c.hist[i]).drop n), handed := c.handed.set i (c.handed[i] ++ (c.hist[i]).take n) }

theorem Capture.take_eq_taken (c : Capture) (i : Fin 8) (n : Nat) : c.take i n = c.taken i n := by
  have moved (d : Capture) (only : ∃ slots, d = { c with slots := slots }) :
      { d with hist := d.hist.set i ((d.hist[i]).drop n), handed := d.handed.set i (d.handed[i] ++ (c.hist[i]).take n) }
        = { c with
            slots := d.slots
            hist := c.hist.set i ((c.hist[i]).drop n), handed := c.handed.set i (c.handed[i] ++ (c.hist[i]).take n) } := by
    obtain ⟨slots, rfl⟩ := only
    rfl
  exact moved _ (Capture.foldl_modFrame_only Frame.handOut ((c.hist[i]).take n) c)

theorem Capture.taken_frame (c : Capture) (i : Fin 8) (n id : Nat) :
    (c.taken i n).frame? id
      = if id ∈ (c.hist[i]).take n then (c.frame? id).map Frame.handOut else c.frame? id :=
  Capture.foldl_handOut_frame _ c id

theorem Capture.taken_named (c : Capture) (r : Fin 8 → List Nat) (i : Fin 8) (n : Nat) (p : Place) (j : Fin 8) :
    (c.taken i n).named r p j
      = if p = .inHistory ∧ j = i then (c.hist[i]).drop n
        else if p = .handedOut ∧ j = i then c.handed[i] ++ (c.hist[i]).take n else c.named r p j := by
  cases p
  case inHistory =>
    refine (vector_get_set c.hist i j _).trans ?_
    simp [Capture.named]
  case handedOut =>
    refine (vector_get_set c.handed i j _).trans ?_
    simp [Capture.named]
  all_goals simp [Capture.named]

theorem State.keeps_take (s : State) (i : Fin 8) (n : Nat) :
    s.Keeps none { s with capture := s.capture.take i n } none := by
  rw [Capture.take_eq_taken]
  let moved := (s.capture.hist[i]).take n
  refine ⟨fun m => ?_, fun placed => ⟨?_, fun whole => ?_, fun agree => ?_⟩⟩
  · rw [State.memoriesCanonical_iff] at m ⊢
    exact m
  · have hist := placed.2 .inHistory i
    change s.capture.Lists .inHistory i s.capture.hist[i] at hist
    have split := hist.1
    rw [← List.take_append_drop n s.capture.hist[i]] at split
    obtain ⟨-, -, apart⟩ := List.nodup_append.mp split
    have stays (id : Nat) (h : id ∉ moved) : s.capture.Stays (s.capture.taken i n) id :=
      Capture.stays_of_same ((s.capture.taken_frame i n id).trans (if_neg h))
    have elsewhere {p : Place} {j : Fin 8} (other : ¬ (p = .inHistory ∧ j = i)) {id : Nat}
        (hid : id ∈ s.capture.named (s.reception none) p j) : id ∉ moved := fun h =>
      other (placed.named_unique hid (show id ∈ s.capture.named (s.reception none) .inHistory i from
        (List.take_sublist n _).subset h))
    have old {p : Place} {j : Fin 8} (other : ¬ (p = .inHistory ∧ j = i)) :
        (s.capture.taken i n).Lists p j (s.capture.named (s.reception none) p j) :=
      (placed.2 p j).sublist (.refl _) fun id hid => stays id (elsewhere other hid)
    refine ⟨Capture.foldl_modFrame_rising _ _ placed.1, fun p j => ?_⟩
    change (s.capture.taken i n).Lists p j ((s.capture.taken i n).named (s.reception none) p j)
    rw [Capture.taken_named]
    split
    next here =>
      obtain ⟨rfl, rfl⟩ := here
      exact hist.sublist (List.drop_sublist n _) fun id hid => stays id fun h => apart id h id hid rfl
    next other =>
      split
      next here =>
        obtain ⟨rfl, rfl⟩ := here
        obtain ⟨once, held⟩ := old other
        refine ⟨List.nodup_append.mpr ⟨once, hist.1.sublist (List.take_sublist n _), fun a ha b hb e => ?_⟩, fun id hid => ?_⟩
        · exact elsewhere other ha (e ▸ hb)
        · obtain before | now := List.mem_append.mp hid
          · exact held id before
          · obtain ⟨f, frame, -, line⟩ := Capture.holdsAt_iff.mp (hist.2 id ((List.take_sublist n _).subset now))
            refine Capture.holdsAt_iff.mpr ⟨f.handOut, ?_, rfl, line⟩
            rw [Capture.taken_frame, if_pos now, frame]
            rfl
      next => exact old other
  · have folded := Capture.foldl_modFrame_pages (g := Frame.handOut) (fun _ => rfl) moved whole
    obtain ⟨slots, only⟩ := Capture.foldl_modFrame_only Frame.handOut moved s.capture
    have free : (moved.foldl (fun c id => c.modFrame id Frame.handOut) s.capture).free = s.capture.free := by rw [only]
    unfold Capture.PagesWhole at folded
    rw [free] at folded
    exact folded
  · exact (Capture.foldl_handOut_pins moved agree).congr rfl fun _ => rfl

end Sys2Proof.Machine
end

section
/-! PROOFS. Frame lists of incidents, pin claims and unpin claims (R36, R37, R71, R74 to R77, R81). -/

namespace Sys2Proof.Machine

/-! ### The frame list (R76, R77) -/

theorem Capture.place_perm (c : Capture) (id : Nat) (l : List Nat) : (c.place id l).Perm (id :: l) := by
  induction l with
  | nil => exact .refl _
  | cons x rest ih =>
    unfold Capture.place
    split
    · exact .refl _
    · exact (ih.cons x).trans (.swap id x rest)

theorem Capture.ordered_perm (c : Capture) (ids : List Nat) : (c.ordered ids).Perm ids := by
  have placed (acc : List Nat) : (ids.foldl (fun acc id => c.place id acc) acc).Perm (ids.reverse ++ acc) := by
    induction ids generalizing acc with
    | nil => exact .refl _
    | cons a rest ih =>
      rw [List.foldl_cons, List.reverse_cons, List.append_assoc]
      exact (ih _).trans ((c.place_perm a acc).append_left _)
  exact ((placed []).trans (by rw [List.append_nil])).trans (List.reverse_perm ids)

/-- Admission newest first takes a first part of the list, as long as the byte budget goes (R77). -/
theorem Capture.admitNewest_spec (c : Capture) (ids acc : List Nat) (used : Nat) :
    ∃ taken left, ids = taken ++ left
      ∧ c.admitNewest acc used ids = (taken.reverse ++ acc, used + (taken.map c.cost).sum, decide (left ≠ []))
      ∧ (taken ≠ [] → used + (taken.map c.cost).sum ≤ 32624)
      ∧ ∀ x, left.head? = some x → 32624 < used + (taken.map c.cost).sum + c.cost x := by
  induction ids generalizing acc used with
  | nil => exact ⟨[], [], rfl, by simp [Capture.admitNewest], fun h => (h rfl).elim, fun x h => (Option.some_ne_none x h.symm).elim⟩
  | cons a older ih =>
    unfold Capture.admitNewest
    split
    next fits =>
      obtain ⟨taken, left, rfl, run, within, beyond⟩ := ih (a :: acc) (used + c.cost a)
      have total : used + ((a :: taken).map c.cost).sum = used + c.cost a + (taken.map c.cost).sum := by
        rw [List.map_cons, List.sum_cons, Nat.add_assoc]
      refine ⟨a :: taken, left, rfl, ?_, fun _ => ?_, ?_⟩
      · rw [run, total, List.reverse_cons, List.append_assoc]
        rfl
      · rw [total]
        by_cases more : taken = []
        · rw [more]; exact fits
        · exact within more
      · rw [total]
        exact beyond
    next full =>
      refine ⟨[], a :: older, rfl, by simp, fun h => (h rfl).elim, fun x h => ?_⟩
      obtain rfl := Option.some.inj h
      exact Nat.not_le.mp full

theorem Capture.lineCandidates_subset (c : Capture) (n : Nat) (trigger : Option Frame) (i : Fin 8) :
    (c.lineCandidates n trigger i).Sublist (c.handed[i] ++ c.hist[i]) := by
  unfold Capture.lineCandidates
  dsimp only
  split
  · exact List.drop_sublist _ _
  · split
    · exact List.drop_sublist _ _
    · exact (List.drop_sublist _ _).trans List.filter_sublist

/-- The pre-window candidates of a capture set, by line (R74, R75). -/
def Capture.preIds (c : Capture) (set : Byte) (n : Nat) (trigger : Option Frame) : List Nat :=
  (allLines.filter fun i => inSet set i.val).flatMap (c.lineCandidates n trigger)

/-- What a pre-window holds: of the candidates in order the newest that the budget takes, and the trigger frame. -/
theorem Capture.preWindow_spec (c : Capture) (set : Byte) (n : Nat) (frame : Option Nat) :
    ∃ left taken, c.ordered (c.preIds set n (frame.bind c.frame?)) = left ++ taken
      ∧ (let used := (frame.map c.cost).getD 0 + (taken.map c.cost).sum
        c.preWindow set n frame
            = (match frame with | some id => c.place id taken | none => taken, used, decide (left ≠ []))
          ∧ (taken ≠ [] → used ≤ 32624) ∧ ∀ x, left.getLast? = some x → 32624 < used + c.cost x) := by
  obtain ⟨taken, left, split, run, within, beyond⟩ := c.admitNewest_spec
    (c.ordered (c.preIds set n (frame.bind c.frame?))).reverse [] ((frame.map c.cost).getD 0)
  have whole := congrArg List.reverse split
  rw [List.reverse_reverse, List.reverse_append] at whole
  have sum : (taken.reverse.map c.cost).sum = (taken.map c.cost).sum := by
    rw [List.map_reverse, List.sum_reverse]
  refine ⟨left.reverse, taken.reverse, whole, ?_⟩
  rw [sum, List.getLast?_reverse]
  refine ⟨?_, fun h => within fun e => h (by rw [e]; rfl), beyond⟩
  unfold Capture.preIds at run
  unfold Capture.preWindow
  simp only [run, List.append_nil]
  cases frame <;> simp

/-- The candidates of frames placed once are of their lists, each once. -/
theorem Capture.Placed.preIds {c : Capture} {r : Fin 8 → List Nat} (h : c.Placed r) (set : Byte) (n : Nat)
    (trigger : Option Frame) :
    (c.preIds set n trigger).Nodup ∧ ∀ id ∈ c.preIds set n trigger, ∃ i : Fin 8, id ∈ c.handed[i] ++ c.hist[i] := by
  have both (i : Fin 8) : (c.handed[i] ++ c.hist[i]).Nodup :=
    List.nodup_append.mpr ⟨(h.2 .handedOut i).1, (h.2 .inHistory i).1, fun a ha b hb e =>
      (h.2 .handedOut i).apart (h.2 .inHistory i) (.inl Place.noConfusion) ha (e ▸ hb)⟩
  have lineOf {i : Fin 8} {id : Nat} (hid : id ∈ c.handed[i] ++ c.hist[i]) : ∃ p, id ∈ c.named r p i := by
    obtain handed | hist := List.mem_append.mp hid
    · exact ⟨.handedOut, handed⟩
    · exact ⟨.inHistory, hist⟩
  refine ⟨List.nodup_flatMap.mpr ⟨fun i _ => (both i).sublist (c.lineCandidates_subset n trigger i), ?_⟩, fun id hid => ?_⟩
  · refine ((List.nodup_finRange 8).sublist List.filter_sublist).imp fun {i j} different id hi hj => different ?_
    obtain ⟨p, atI⟩ := lineOf ((c.lineCandidates_subset n trigger i).subset hi)
    obtain ⟨q, atJ⟩ := lineOf ((c.lineCandidates_subset n trigger j).subset hj)
    exact (h.named_unique atI atJ).2
  · obtain ⟨i, -, hi⟩ := List.mem_flatMap.mp hid
    exact ⟨i, (c.lineCandidates_subset n trigger i).subset hi⟩

theorem Capture.Placed.frame_of_listed {c : Capture} {r : Fin 8 → List Nat} (h : c.Placed r) {i : Fin 8} {id : Nat}
    (hid : id ∈ c.handed[i] ++ c.hist[i]) :
    ∃ f, c.frame? id = some f ∧ f.line = i ∧ (f.place = .handedOut ∨ f.place = .inHistory) := by
  obtain handed | hist := List.mem_append.mp hid
  · obtain ⟨f, frame, place, line⟩ := h.frame (p := .handedOut) handed
    exact ⟨f, frame, line, .inl place⟩
  · obtain ⟨f, frame, place, line⟩ := h.frame (p := .inHistory) hist
    exact ⟨f, frame, line, .inr place⟩

/-! ### Holders (R71) -/

/-- The incident in a slot holds a frame. -/
def Incidents.holdsIn (u : Incidents) (id : Nat) (k : Fin 4) : Bool := (u.table[k]).any fun n => decide (id ∈ n.frames)

/-- The count of holders when one incident slot changes. -/
theorem Incidents.holders_change {u v : Incidents} (k : Fin 4) (id : Nat)
    (others : ∀ j : Fin 4, j ≠ k → v.table[j] = u.table[j]) :
    v.holders id + (if u.holdsIn id k then 1 else 0) = u.holders id + (if v.holdsIn id k then 1 else 0) := by
  have counted (w : Incidents) : w.holders id
      = (if w.holdsIn id k then 1 else 0) + (allSlots.erase k).countP (w.holdsIn id) := by
    have perm : allSlots.Perm (k :: allSlots.erase k) := List.perm_cons_erase (List.mem_finRange k)
    unfold Incidents.holders
    rw [← List.countP_eq_length_filter]
    refine (perm.countP_eq _).trans ?_
    rw [List.countP_cons, Nat.add_comm]
    rfl
  have same : (allSlots.erase k).countP (v.holdsIn id) = (allSlots.erase k).countP (u.holdsIn id) := by
    refine List.countP_congr fun j hj => ?_
    have other : j ≠ k := fun e => (List.Nodup.not_mem_erase (List.nodup_finRange 4) : k ∉ allSlots.erase k) (e ▸ hj)
    unfold Incidents.holdsIn
    rw [others j other]
  rw [counted v, counted u, same]
  omega

/-! ### Pin claims (R36) -/

/-- A frame pinned once more. -/
def Frame.pinned (f : Frame) : Frame := { f with pins := f.pins + 1 }

theorem Capture.foldl_pin_eq (ids : List Nat) (c : Capture) :
    ids.foldl Capture.pin c = ids.foldl (fun c id => c.modFrame id Frame.pinned) c := rfl

theorem Capture.foldl_pin_only (ids : List Nat) (c : Capture) :
    ∃ slots, ids.foldl Capture.pin c = { c with slots := slots } := Capture.foldl_modFrame_only Frame.pinned ids c

/-- Frames are pinned, each named once. -/
theorem Capture.foldl_pin_frame {ids : List Nat} (once : ids.Nodup) (c : Capture) (id : Nat) :
    (ids.foldl Capture.pin c).frame? id = if id ∈ ids then (c.frame? id).map Frame.pinned else c.frame? id := by
  rw [Capture.foldl_pin_eq, Capture.foldl_modFrame_frame]
  split
  next named => rw [List.count_eq_one_of_mem once named]; rfl
  next other => rw [List.count_eq_zero_of_not_mem other, Function.iterate_zero, Option.map_id]; rfl

theorem Capture.stays_pin (ids : List Nat) (c : Capture) (id : Nat) : c.Stays (ids.foldl Capture.pin c) id := by
  intro f frame
  have kept (n : Nat) : (Frame.pinned^[n] f).line = f.line ∧ (Frame.pinned^[n] f).place = f.place := by
    induction n with
    | zero => exact ⟨rfl, rfl⟩
    | succ n ih => rw [Function.iterate_succ']; exact ih
  exact ⟨Frame.pinned^[ids.count id] f, by rw [Capture.foldl_pin_eq, Capture.foldl_modFrame_frame, frame]; rfl, kept _⟩

/-- An incident takes more frames, each pinned (R36). -/
theorem State.keeps_hold {s t : State} {x : Option (Fin 8 × Nat)} (k : Fin 4) (n : Incident) (old new : List Nat)
    (was : (s.inc.framesOf k).getD [] = old) (capture : t.capture = new.foldl Capture.pin s.capture)
    (here : t.inc.table[k] = some n) (others : ∀ j : Fin 4, j ≠ k → t.inc.table[j] = s.inc.table[j])
    (frames : n.frames.Perm (new ++ old)) (lines : t.lines = s.lines) (store : t.store = s.store)
    (fresh : s.Placed x → new.Nodup ∧ ∀ id ∈ new, id ∉ old ∧ ∃ f, s.capture.frame? id = some f
      ∧ (f.place = .inReception → IsClassed x id) ∧ f.place ≠ .detached) : s.Keeps x t x := by
  obtain ⟨slots, only⟩ := Capture.foldl_pin_only new s.capture
  have reception : t.reception x = s.reception x := by funext i; unfold State.reception; rw [lines]
  refine ⟨fun m => ?_, fun placed => ⟨?_, fun whole => ?_, fun agree => ?_⟩⟩
  · rw [State.memoriesCanonical_iff] at m ⊢
    rw [capture, only, store]
    exact m
  · refine Capture.Placed.sublists placed ?_ (fun p i => ?_) fun p i id _ => ?_
    · rw [capture]; exact Capture.foldl_modFrame_rising Frame.pinned new placed.1
    · rw [reception, capture, only]; cases p <;> exact .refl _
    · rw [capture]; exact Capture.stays_pin new s.capture id
  · rw [capture]; exact Capture.foldl_modFrame_pages (g := Frame.pinned) (fun _ => rfl) new whole
  · obtain ⟨once, fresh⟩ := fresh placed
    have frame (id : Nat) : t.capture.frame? id
        = if id ∈ new then (s.capture.frame? id).map Frame.pinned else s.capture.frame? id := by
      rw [capture]; exact Capture.foldl_pin_frame once s.capture id
    have still (id : Nat) (h : s.capture.frame? id ≠ none) : t.capture.frame? id ≠ none := by
      obtain ⟨f, hf⟩ := Option.ne_none_iff_exists'.mp h
      rw [frame, hf]
      split <;> exact Option.some_ne_none _
    have oldFrames : old.Nodup ∧ ∀ id ∈ old, s.capture.frame? id ≠ none := by
      unfold Incidents.framesOf at was
      cases entry : s.inc.table[k] with
      | none => rw [entry] at was; subst was; exact ⟨List.nodup_nil, fun _ h => (List.not_mem_nil h).elim⟩
      | some m => rw [entry] at was; subst was; exact agree.1 k m entry
    have holds (id : Nat) : t.inc.holders id = s.inc.holders id + if id ∈ new then 1 else 0 := by
      have change := Incidents.holders_change k id others
      have before : s.inc.holdsIn id k = decide (id ∈ old) := by
        unfold Incidents.holdsIn
        unfold Incidents.framesOf at was
        cases entry : s.inc.table[k] with
        | none => rw [entry] at was; subst was; simp
        | some m => rw [entry] at was; subst was; rfl
      have after : t.inc.holdsIn id k = decide (id ∈ new ∨ id ∈ old) := by
        unfold Incidents.holdsIn
        rw [here]
        simp only [Option.any_some, frames.mem_iff, List.mem_append]
      rw [before, after] at change
      by_cases inNew : id ∈ new
      · simpa [inNew, (fresh id inNew).1] using change
      · simpa [inNew] using change
    refine ⟨fun j m hm => ?_, fun id f hf => ?_⟩
    · by_cases mine : j = k
      · subst mine
        obtain rfl := Option.some.inj (here.symm.trans hm)
        refine ⟨frames.nodup_iff.mpr (List.nodup_append.mpr ⟨once, oldFrames.1, fun a ha b hb e => ?_⟩), fun id hid => ?_⟩
        · exact (fresh a ha).1 (e ▸ hb)
        · obtain now | before := List.mem_append.mp (frames.subset hid)
          · obtain ⟨-, f, hf, -⟩ := fresh id now
            exact still id (hf ▸ Option.some_ne_none f)
          · exact still id (oldFrames.2 id before)
      · rw [others j mine] at hm
        exact ⟨(agree.1 j m hm).1, fun id hid => still id ((agree.1 j m hm).2 id hid)⟩
    · rw [holds id]
      rw [frame] at hf
      split at hf
      next now =>
        obtain ⟨g, hg, rfl⟩ := Option.map_eq_some_iff.mp hf
        obtain ⟨-, f', hf', reception, -⟩ := fresh id now
        obtain rfl := Option.some.inj (hg.symm.trans hf')
        refine ⟨?_, fun _ => Nat.succ_ne_zero _, fun place unclassed => (unclassed (reception place)).elim⟩
        rw [if_pos now]
        exact congrArg (· + 1) (agree.2 id g hg).1
      next other =>
        rw [if_neg other]
        exact agree.2 id f hf

/-! ### Unpin claims (R37, R71) -/

/-- What a slot holds after an unpin claim: a DETACHED frame left at 0 is freed. -/
def Frame.unpinned (f : Frame) : Option Frame :=
  if f.place = .detached ∧ f.pins - 1 = 0 then none else some { f with pins := f.pins - 1 }

theorem Capture.unpin_of_free {c : Capture} {id : Nat} (free : c.frame? id = none) : c.unpin id = c := by
  unfold Capture.unpin
  rw [free]

theorem Capture.unpin_of_frame {c : Capture} {id : Nat} {f : Frame} (frame : c.frame? id = some f) :
    c.unpin id = if f.place = .detached ∧ f.pins - 1 = 0
      then { c with free := c.free ++ f.pages, slots := eraseKey id (insertKey id { f with pins := f.pins - 1 } c.slots) }
      else { c with slots := insertKey id { f with pins := f.pins - 1 } c.slots } := by
  have put : (c.putFrame id { f with pins := f.pins - 1 }).frame? id = some { f with pins := f.pins - 1 } :=
    lookupKey_insertKey_same id _ c.slots
  unfold Capture.unpin
  simp only [frame, Capture.freeFrame_of_frame put]
  rfl

theorem Capture.unpin_frame_same (c : Capture) (id : Nat) : (c.unpin id).frame? id = (c.frame? id).bind Frame.unpinned := by
  cases frame : c.frame? id with
  | none =>
    rw [Capture.unpin_of_free frame, frame]
    rfl
  | some f =>
    rw [Capture.unpin_of_frame frame, Option.bind_some, Frame.unpinned]
    split
    · exact lookupKey_eraseKey_same id _
    · exact lookupKey_insertKey_same id _ _

theorem Capture.unpin_frame_other (c : Capture) (id j : Nat) (h : j ≠ id) : (c.unpin id).frame? j = c.frame? j := by
  cases frame : c.frame? id with
  | none => rw [Capture.unpin_of_free frame]
  | some f =>
    rw [Capture.unpin_of_frame frame]
    split
    · exact (lookupKey_eraseKey_other id j h _).trans (lookupKey_insertKey_other id j h _ _)
    · exact lookupKey_insertKey_other id j h _ _

theorem Capture.unpin_only (c : Capture) (id : Nat) :
    c.unpin id = { c with free := (c.unpin id).free, slots := (c.unpin id).slots } := by
  cases frame : c.frame? id with
  | none => rw [Capture.unpin_of_free frame]
  | some f =>
    rw [Capture.unpin_of_frame frame]
    split <;> rfl

theorem Capture.unpin_rising {c : Capture} (h : risingKeys c.slots = true) (id : Nat) :
    risingKeys (c.unpin id).slots = true := by
  cases frame : c.frame? id with
  | none => rwa [Capture.unpin_of_free frame]
  | some f =>
    rw [Capture.unpin_of_frame frame]
    split
    · exact eraseKey_rising id _ (insertKey_rising id _ _ h)
    · exact insertKey_rising id _ _ h

theorem Capture.unpin_pages {c : Capture} (h : c.PagesWhole) (id : Nat) : (c.unpin id).PagesWhole := by
  cases frame : c.frame? id with
  | none => rwa [Capture.unpin_of_free frame]
  | some f =>
    let d := c.putFrame id { f with pins := f.pins - 1 }
    have put : d.PagesWhole := Capture.pages_replaced frame rfl (.refl _) h
    rw [Capture.unpin_of_frame frame]
    split
    · exact Capture.pages_removed (c := d) (lookupKey_insertKey_same id _ c.slots) rfl rfl put
    · exact put

/-- All that several unpin claims do to capture memory. -/
theorem Capture.foldl_unpin_only (ids : List Nat) (c : Capture) :
    ∃ free slots, ids.foldl Capture.unpin c = { c with free := free, slots := slots } := by
  induction ids generalizing c with
  | nil => exact ⟨c.free, c.slots, rfl⟩
  | cons a rest ih =>
    obtain ⟨free, slots, only⟩ := ih (c.unpin a)
    exact ⟨free, slots, only.trans (by rw [c.unpin_only a])⟩

theorem Capture.foldl_unpin_frame {ids : List Nat} (once : ids.Nodup) (c : Capture) (id : Nat) :
    (ids.foldl Capture.unpin c).frame? id = if id ∈ ids then (c.frame? id).bind Frame.unpinned else c.frame? id := by
  induction ids generalizing c with
  | nil => rfl
  | cons a rest ih =>
    obtain ⟨absent, once⟩ := List.nodup_cons.mp once
    rw [List.foldl_cons, ih once]
    by_cases here : id = a
    · subst here
      rw [if_neg absent, if_pos List.mem_cons_self, c.unpin_frame_same]
    · rw [c.unpin_frame_other a id here]
      simp only [List.mem_cons, here, false_or]

theorem Capture.foldl_unpin_rising (ids : List Nat) {c : Capture} (h : risingKeys c.slots = true) :
    risingKeys (ids.foldl Capture.unpin c).slots = true := by
  induction ids generalizing c with
  | nil => exact h
  | cons a rest ih => exact ih (Capture.unpin_rising h a)

theorem Capture.foldl_unpin_pages (ids : List Nat) {c : Capture} (h : c.PagesWhole) :
    (ids.foldl Capture.unpin c).PagesWhole := by
  induction ids generalizing c with
  | nil => exact h
  | cons a rest ih => exact ih (Capture.unpin_pages h a)

/-- A frame that has a place in a list, or none yet, stays through unpin claims. -/
theorem Capture.stays_unpin (ids : List Nat) (c : Capture) (id : Nat)
    (listed : ∃ f, c.frame? id = some f ∧ f.place ≠ .detached) : c.Stays (ids.foldl Capture.unpin c) id := by
  induction ids generalizing c with
  | nil => exact Capture.stays_of_same rfl
  | cons a rest ih =>
    obtain ⟨f, frame, place⟩ := listed
    have first : ∃ g, (c.unpin a).frame? id = some g ∧ g.line = f.line ∧ g.place = f.place := by
      by_cases here : id = a
      · subst here
        refine ⟨{ f with pins := f.pins - 1 }, ?_, rfl, rfl⟩
        rw [c.unpin_frame_same, frame, Option.bind_some, Frame.unpinned, if_neg fun h => place h.1]
      · exact ⟨f, (c.unpin_frame_other a id here).trans frame, rfl, rfl⟩
    obtain ⟨g, found, line, samePlace⟩ := first
    intro f' frame'
    obtain rfl := Option.some.inj (frame.symm.trans frame')
    obtain ⟨h, last, line', place'⟩ := ih (c.unpin a) ⟨g, found, samePlace ▸ place⟩ g found
    exact ⟨h, last, line'.trans line, place'.trans samePlace⟩

/-- An incident ends, and its frames are unpinned (R71). -/
theorem State.keeps_endIncident (s : State) (k : Fin 4) (n : Incident) (here : s.inc.table[k] = some n) :
    s.Keeps none (s.endIncident k n) none := by
  obtain ⟨free, slots, only⟩ := Capture.foldl_unpin_only n.frames s.capture
  have capture : (s.endIncident k n).capture = n.frames.foldl Capture.unpin s.capture := rfl
  have table (j : Fin 4) : (s.endIncident k n).inc.table[j] = if j = k then none else s.inc.table[j] :=
    vector_get_set s.inc.table k j none
  refine ⟨fun m => ?_, fun placed => ⟨?_, fun whole => ?_, fun agree => ?_⟩⟩
  · rw [State.memoriesCanonical_iff] at m ⊢
    rw [capture, only]
    exact m
  · refine Capture.Placed.sublists placed (Capture.foldl_unpin_rising _ placed.1) (fun p i => ?_) fun p i id hid => ?_
    · rw [capture, only]; cases p <;> exact .refl _
    · rw [capture] at hid ⊢
      have listed : id ∈ s.capture.named (s.reception none) p i := by
        rw [only] at hid
        cases p <;> exact hid
      obtain ⟨f, frame, place, -⟩ := placed.frame listed
      refine Capture.stays_unpin n.frames s.capture id ⟨f, frame, fun detached => ?_⟩
      obtain rfl := place.symm.trans detached
      exact List.not_mem_nil listed
  · exact Capture.foldl_unpin_pages n.frames whole
  · obtain ⟨once, -⟩ := agree.1 k n here
    have frame (id : Nat) : (s.endIncident k n).capture.frame? id
        = if id ∈ n.frames then (s.capture.frame? id).bind Frame.unpinned else s.capture.frame? id :=
      Capture.foldl_unpin_frame once s.capture id
    have holds (id : Nat) : (s.endIncident k n).inc.holders id + (if id ∈ n.frames then 1 else 0) = s.inc.holders id := by
      have change := Incidents.holders_change (u := s.inc) (v := (s.endIncident k n).inc) k id fun j other =>
        (table j).trans (if_neg other)
      have before : s.inc.holdsIn id k = decide (id ∈ n.frames) := by unfold Incidents.holdsIn; rw [here]; rfl
      have after : (s.endIncident k n).inc.holdsIn id k = false := by
        unfold Incidents.holdsIn; rw [table k, if_pos rfl]; rfl
      rw [before, after] at change
      simpa using change
    refine ⟨fun j m hm => ?_, fun id g hg => ?_⟩
    · rw [table j] at hm
      split at hm
      · exact (Option.some_ne_none m hm.symm).elim
      next other =>
        refine ⟨(agree.1 j m hm).1, fun id hid => ?_⟩
        obtain ⟨f, found⟩ := Option.ne_none_iff_exists'.mp ((agree.1 j m hm).2 id hid)
        rw [frame, found]
        split
        next mine =>
          have still : (s.endIncident k n).inc.holders id ≠ 0 :=
            Incidents.holders_pos ((table j).trans (by rw [if_neg other, hm])) hid
          have count := (agree.2 id f found).1
          have drop := holds id
          rw [if_pos mine] at drop
          rw [Option.bind_some, Frame.unpinned, if_neg (by omega)]
          exact Option.some_ne_none _
        next => exact Option.some_ne_none f
    · rw [frame] at hg
      have drop := holds id
      split at hg
      next mine =>
        obtain ⟨f, found, left⟩ := Option.bind_eq_some_iff.mp hg
        obtain ⟨count, -, reception⟩ := agree.2 id f found
        rw [if_pos mine] at drop
        unfold Frame.unpinned at left
        split at left
        · exact (Option.some_ne_none g left.symm).elim
        next stays =>
          obtain rfl := Option.some.inj left
          refine ⟨show f.pins - 1 = _ by omega, fun detached => fun zero => stays ⟨detached, zero⟩, fun place unclassed => ?_⟩
          have unpinned := reception place unclassed
          exact show f.pins - 1 = 0 by omega
      next other =>
        rw [if_neg other, Nat.add_zero] at drop
        rw [drop]
        exact agree.2 id g hg

theorem State.keeps_abandon (s : State) (k : Fin 4) (r : AbandonReason) : s.Keeps none (s.abandon k r) none := by
  unfold State.abandon
  split
  next n here => exact (s.keeps_endIncident k n here).trans ((State.sameFrames_notify _ _).keeps none)
  next => exact .refl s none

/-! ### Closing, opening, offering (R73, R81, R82, R84) -/

theorem State.sameFrames_closeIncident (s : State) (k : Fin 4) (r : CloseReason) : s.SameFrames (s.closeIncident k r) := by
  unfold State.closeIncident
  split
  next n here =>
    refine State.SameFrames.trans ?_ (State.sameFrames_notify _ _)
    refine (s.sameFrames_setIncident k (n := { n with state := .queued, closeReason := some r, postTimer := none }) here
      rfl).trans ?_
    exact .of_eq rfl rfl rfl fun _ => rfl
  next => exact .refl s

theorem Incidents.freeSlot_empty {u : Incidents} {k : Fin 4} (h : u.freeSlot = some k) : u.table[k] = none := by
  have empty := List.find?_some (p := fun k => (u.table[(k : Fin 4)]).isNone) h
  exact Option.isNone_iff_eq_none.mp empty

/-- The frame that an incident is opened on is the one under classification, or there is none. -/
def OpensOn (x : Option (Fin 8 × Nat)) (r : OpenRequest) : Prop := ∀ id, r.frame = some id → IsClassed x id

/-- The frames of an opening are frames of lists, and the trigger frame, each once (R74). -/
theorem State.newIncident_frames (s : State) {x : Option (Fin 8 × Nat)} (r : OpenRequest) (id : Half)
    (on : OpensOn x r) (placed : s.Placed x) :
    (s.newIncident r id).frames.Nodup ∧ ∀ a ∈ (s.newIncident r id).frames,
      (∃ i : Fin 8, a ∈ s.capture.handed[i] ++ s.capture.hist[i]) ∨ r.frame = some a := by
  let b := (s.matcher.entries[r.entry]).body
  obtain ⟨left, taken, split, run, -⟩ := s.capture.preWindow_spec b.captureSet b.preCount.toNat r.frame
  obtain ⟨once, listed⟩ := placed.preIds b.captureSet b.preCount.toNat (r.frame.bind s.capture.frame?)
  have perm := s.capture.ordered_perm (s.capture.preIds b.captureSet b.preCount.toNat (r.frame.bind s.capture.frame?))
  rw [split] at perm
  have takenOnce : taken.Nodup := (List.nodup_append.mp (perm.nodup_iff.mpr once)).2.1
  have takenListed (a : Nat) (ha : a ∈ taken) : ∃ i : Fin 8, a ∈ s.capture.handed[i] ++ s.capture.hist[i] :=
    listed a (perm.subset (List.mem_append_right _ ha))
  have frames : (s.newIncident r id).frames
      = match r.frame with | some id => s.capture.place id taken | none => taken := congrArg Prod.fst run
  rw [frames]
  cases trigger : r.frame with
  | none => exact ⟨takenOnce, fun a ha => .inl (takenListed a ha)⟩
  | some t =>
    have perm := s.capture.place_perm t taken
    refine ⟨perm.nodup_iff.mpr (List.nodup_cons.mpr ⟨fun again => ?_, takenOnce⟩), fun a ha => ?_⟩
    · obtain ⟨j, rfl⟩ := on t trigger
      obtain ⟨i, hi⟩ := takenListed t again
      obtain ⟨f, frame, -, place⟩ := placed.frame_of_listed hi
      obtain ⟨g, frame', place', -⟩ := placed.classed_frame
      obtain rfl := Option.some.inj (frame.symm.trans frame')
      rw [place'] at place
      exact place.elim Place.noConfusion Place.noConfusion
    · obtain rfl | rest := List.mem_cons.mp (perm.subset ha)
      · exact .inr rfl
      · exact .inl (takenListed a rest)

theorem State.keeps_openIncident (s : State) {x : Option (Fin 8 × Nat)} (r : OpenRequest) (on : OpensOn x r) {t : State}
    (opened : s.openIncident r = some t) : s.Keeps x t x := by
  unfold State.openIncident at opened
  split at opened
  · exact (Option.some_ne_none t opened.symm).elim
  next k slot =>
    let id := freshId s.inc.ids 4 s.inc.idCounter
    let n := s.newIncident r id
    let s1 : State := { s with
      capture := n.frames.foldl Capture.pin s.capture
      inc := { s.inc with table := s.inc.table.set k (some n), opened := s.inc.opened ++ [k], idCounter := nextId id } }
    have table (j : Fin 4) : s1.inc.table[j] = if j = k then some n else s.inc.table[j] :=
      vector_get_set s.inc.table k j (some n)
    have held : s.Keeps x s1 x := by
      refine State.keeps_hold k n [] n.frames ?_ rfl ((table k).trans (if_pos rfl)) (fun j other => (table j).trans (if_neg other))
        (by rw [List.append_nil]) rfl rfl fun placed => ?_
      · unfold Incidents.framesOf; rw [Incidents.freeSlot_empty slot]; rfl
      · obtain ⟨once, listed⟩ := s.newIncident_frames r id on placed
        refine ⟨once, fun a ha => ⟨List.not_mem_nil, ?_⟩⟩
        obtain ⟨i, hi⟩ | trigger := listed a ha
        · obtain ⟨f, frame, -, place⟩ := placed.frame_of_listed hi
          refine ⟨f, frame, fun h => ?_, fun h => ?_⟩
          all_goals
            rw [h] at place
            exact place.elim Place.noConfusion Place.noConfusion
        · obtain ⟨j, rfl⟩ := on a trigger
          obtain ⟨f, frame, place, -⟩ := placed.classed_frame
          exact ⟨f, frame, fun _ => ⟨j, rfl⟩, place ▸ Place.noConfusion⟩
    have noted := held.trans ((s1.sameFrames_notify (.incidentOpened id r.source r.entry r.trigger r.time n.captureSet
      n.frames.length n.budget n.preTrimmed)).keeps x)
    obtain rfl := Option.some.inj opened
    split
    · exact noted.trans ((State.sameFrames_closeIncident _ k .count).keeps x)
    · exact noted

theorem State.keeps_offerFrame (s : State) (i : Fin 8) (id : Nat) (line : Fin 8) (k : Fin 4) :
    s.Keeps (some (i, id)) (s.offerFrame id line k) (some (i, id)) := by
  unfold State.offerFrame
  split
  · exact .refl s _
  next n here =>
    split
    next takes =>
      dsimp only
      split
      · exact (s.sameFrames_closeIncident k .full).keeps _
      next fits =>
        let n' : Incident := { n with
          frames := s.capture.place id n.frames, budget := n.budget + s.capture.cost id, postFrames := n.postFrames + 1 }
        have table (j : Fin 4) : (({ s with capture := s.capture.pin id }).setIncident k (some n')).inc.table[j]
            = if j = k then some n' else s.inc.table[j] := vector_get_set s.inc.table k j (some n')
        have held : s.Keeps (some (i, id)) (({ s with capture := s.capture.pin id }).setIncident k (some n'))
            (some (i, id)) := by
          refine State.keeps_hold k n' n.frames [id] ?_ rfl ((table k).trans (if_pos rfl))
            (fun j other => (table j).trans (if_neg other)) (s.capture.place_perm id n.frames) rfl rfl fun placed => ?_
          · unfold Incidents.framesOf; rw [here]; rfl
          · refine ⟨List.nodup_singleton id, fun a ha => ?_⟩
            obtain rfl := List.mem_singleton.mp ha
            obtain ⟨f, frame, place, -⟩ := placed.classed_frame
            exact ⟨takes.2.2, f, frame, fun _ => ⟨i, rfl⟩, place ▸ Place.noConfusion⟩
        split
        · exact held.trans ((State.sameFrames_closeIncident _ k .count).keeps _)
        · exact held
    next => exact .refl s _

theorem State.keeps_arrive (s : State) (i : Fin 8) (id : Nat) (line : Fin 8) :
    s.Keeps (some (i, id)) (s.arrive id line) (some (i, id)) := by
  unfold State.arrive
  generalize s.inc.opened = opened
  induction opened generalizing s with
  | nil => exact .refl s _
  | cons k rest ih => exact (s.keeps_offerFrame i id line k).trans (ih _)

end Sys2Proof.Machine
end

section
/-! PROOFS. What the match unit, the incident unit and the ends of program units keep (R55 to R63, R133 to R135). -/

namespace Sys2Proof.Machine

/-! ### Open requests (R57, R58) -/

theorem State.keeps_putRequest (s : State) {x : Option (Fin 8 × Nat)} (r : OpenRequest) (on : OpensOn x r) :
    s.Keeps x (s.putRequest r).1 x := by
  unfold State.putRequest
  split
  next t opened =>
    refine (s.keeps_openIncident r on opened).trans (State.SameFrames.keeps ?_ x)
    exact .of_eq rfl rfl rfl fun _ => rfl
  next => exact State.SameFrames.keeps (.of_eq rfl rfl rfl fun _ => rfl) x

theorem State.keeps_fire (s : State) {x : Option (Fin 8 × Nat)} {request : Fin 16 → OpenRequest}
    (on : ∀ e, OpensOn x (request e)) (es : List (Fin 16)) : s.Keeps x (s.fire request es).1 x := by
  unfold State.fire
  generalize false = opened
  induction es generalizing s opened with
  | nil => exact .refl s x
  | cons e rest ih => exact (s.keeps_putRequest (request e) (on e)).trans (ih _ _)

/-! ### CLASSIFICATION (R55 to R60) -/

theorem State.keeps_classifyFrame (s : State) (i : Fin 8) (id : Nat) (f : Frame) :
    s.Keeps (some (i, id)) (s.classifyFrame i id f) none := by
  unfold State.classifyFrame
  dsimp only
  generalize s.matcher.evaluate (fun m e => m.matchesFrame e f (s.capture.frameBytes f) s.time.tod) f.start = r
  have matched : s.Keeps (some (i, id))
      { s with matcher := r.1, capture := s.capture.modFrame id fun f => { f with matchSet := r.2 } } (some (i, id)) :=
    (s.keeps_modFrame (some (i, id)) id (g := fun f => { f with matchSet := r.2 }) (fun _ => rfl) (fun _ => rfl)
      (fun _ => rfl) fun _ => rfl).trans (State.SameFrames.keeps (.of_eq rfl rfl rfl fun _ => rfl) _)
  have fired := matched.trans (State.keeps_fire _ (request := frameRequest i id f)
    (fun e a ha => ⟨i, by rw [← Option.some.inj ha]⟩) (r.1.firing r.2))
  split
  · exact fired.trans (State.keeps_dropClaim _ i id)
  · exact (fired.trans (State.keeps_arrive _ i id i)).trans (State.keeps_keepClaim _ i id)

theorem Line.sameFrames_finishStop (l : Line) : l.SameFrames l.finishStop := by
  unfold Line.finishStop
  split
  · exact .refl _
  · exact .refl l

theorem State.keeps_classify (s : State) (i : Fin 8) : s.Keeps none (s.classify i) none := by
  unfold State.classify
  split
  · exact .refl s none
  next id rest awaiting =>
    split
    · exact .refl s none
    next f frame =>
      have classed := (s.keeps_classed i awaiting).trans (State.keeps_classifyFrame _ i id f)
      refine (classed.trans ?_).trans ((State.sameFrames_settleEvent s _).keeps none)
      exact (State.sameFrames_modLine _ i (Line.sameFrames_finishStop _)).keeps none

/-! ### Program units end (R97, R98, R133 to R135) -/

theorem State.keeps_retain (s : State) (k : Fin 4) (c : Commit) (p : Programming) :
    s.Keeps none (s.retain k c p) none := by
  unfold State.retain
  split
  · exact .refl s none
  next n here =>
    dsimp only
    refine State.Keeps.trans ?_ ((State.SameFrames.trans (State.sameFrames_notify _ _)
      (State.sameFrames_endCommit _)).keeps none)
    refine State.Keeps.trans ?_ (State.keeps_endIncident _ k n here)
    refine State.SameFrames.keeps ?_ none
    refine .of_eq rfl rfl rfl fun y => ?_
    refine s.modSector_mem p.sector (fun v => ?_) y
    rfl

theorem State.keeps_cancelMarked (s : State) (k : Fin 4) (c : Commit) (p : Programming) :
    s.Keeps none (s.cancelMarked k c p) none := by
  unfold State.cancelMarked
  refine State.Keeps.trans ?_ ((State.sameFrames_endCommit _).keeps none)
  refine State.Keeps.trans ?_ (State.keeps_abandon _ k .cancelled)
  exact (s.sameFrames_modSector p.sector id).keeps none

theorem State.sameFrames_retry (s : State) (k : Fin 4) (n : Incident) (here : s.inc.table[k] = some n) :
    s.SameFrames (s.retry k n) :=
  (s.sameFrames_setIncident k (n := { n with state := .queued, retried := true }) here rfl).trans
    (.of_eq rfl rfl rfl fun _ => rfl)

theorem State.keeps_commitFails (s : State) (k : Fin 4) (op : ProgramOp) (p : Programming) :
    s.Keeps none (s.commitFails k op p) none := by
  unfold State.commitFails
  split
  · exact .refl s none
  next n here =>
    have faulted : s.Keeps none ((s.programFault op).modSector p.sector Sector.close) none :=
      ((s.sameFrames_programFault op).trans (State.sameFrames_closeSector _ p.sector)).keeps none
    dsimp only
    refine faulted.trans (State.Keeps.trans ?_ ((State.sameFrames_endCommit _).keeps none))
    split
    · exact State.keeps_abandon _ k .cancelled
    · split
      · exact State.keeps_abandon _ k .storeFault
      · refine (State.sameFrames_retry _ k n ?_).keeps none
        exact here

theorem State.keeps_unitPassed (s : State) (op : ProgramOp) : s.Keeps none (s.unitPassed op) none := by
  unfold State.unitPassed
  split
  · split
    next x seq _ =>
      refine State.SameFrames.keeps ?_ none
      exact (s.sameFrames_modSector x (f := Sector.opened seq) id).trans (State.sameFrames_recheck _ _)
    · split
      · exact (s.sameFrames_continueRecord _ _ _).keeps none
      · exact s.keeps_retain _ _ _
      · exact s.keeps_cancelMarked _ _ _
    · exact .refl s none
  · exact State.SameFrames.keeps (.of_eq rfl rfl rfl fun _ => rfl) none

theorem Sector.spoilt_mem (v : Sector) : v.spoilt.mem = v.mem := Sector.settle_mem _

theorem State.keeps_unitFailed (s : State) (op : ProgramOp) : s.Keeps none (s.unitFailed op) none := by
  unfold State.unitFailed
  split
  · split
    next x _ _ =>
      refine State.SameFrames.keeps ((s.sameFrames_programFault op).trans ?_) none
      refine State.SameFrames.trans (State.sameFrames_modSector _ x (f := Sector.spoilt) ?_) (State.sameFrames_recheck _ _)
      rw [Sector.spoilt_mem]
      exact id
    · exact s.keeps_commitFails _ op _
    · exact .refl s none
  · refine State.SameFrames.keeps ((s.sameFrames_programFault op).trans ?_) none
    refine (State.sameFrames_closeSector _ op.sector).trans ?_
    exact .of_eq rfl rfl rfl fun _ => rfl

theorem State.keeps_unitEnd (s : State) (op : ProgramOp) (bytes : List Byte) (passed : Prop) [Decidable passed] :
    s.Keeps none (State.settleEvent s
      (if passed then (s.leaveBytes op bytes).unitPassed op else (s.leaveBytes op bytes).unitFailed op)) none := by
  refine ((s.sameFrames_leaveBytes op bytes).keeps none).trans
    (State.Keeps.trans ?_ ((State.sameFrames_settleEvent s _).keeps none))
  split
  · exact State.keeps_unitPassed _ op
  · exact State.keeps_unitFailed _ op

end Sys2Proof.Machine
end

section
/-! PROOFS. What the events of a line keep: claims of slots and pages, ends of frames, characters, the idle timer
(R5 to R14, R26, R27, R39 to R41). -/

namespace Sys2Proof.Machine

/-! ### A page claim (R26, R27, R39, R40) -/

/-- A page claim takes the head of the free page list, perhaps after a reclaim. -/
theorem Capture.grantPage_spec {c d : Capture} {lines : Vector Line 8} {p : Nat} (h : c.grantPage lines = some (p, d)) :
    ∃ e, (e = c ∨ e = c.reclaim lines) ∧ e.free = p :: d.free ∧ d = { e with free := d.free } := by
  unfold Capture.grantPage at h
  split at h
  next page rest free =>
    obtain ⟨rfl, rfl⟩ := Prod.mk.inj (Option.some.inj h)
    exact ⟨c, .inl rfl, free, rfl⟩
  next =>
    dsimp only at h
    split at h
    next page rest free =>
      obtain ⟨rfl, rfl⟩ := Prod.mk.inj (Option.some.inj h)
      exact ⟨c.reclaim lines, .inr rfl, free, rfl⟩
    next => exact (Option.some_ne_none _ h.symm).elim

/-- A reclaim leaves capture memory alone, or an unpinned frame of a history leaves it. -/
theorem Capture.reclaim_spec (c : Capture) (lines : Vector Line 8) :
    c.reclaim lines = c ∨ ∃ (j : Fin 8) (x : Nat), x ∈ c.hist[j]
      ∧ c.reclaim lines = ({ c with hist := c.hist.set j ((c.hist[j]).filter (· != x)) } : Capture).leave x := by
  unfold Capture.reclaim
  split
  next j x st oldest =>
    obtain ⟨g, ⟨-, listed, frame, unpinned⟩, -⟩ := Capture.mem_candidates.mp (oldestOf_mem oldest)
    refine .inr ⟨j, x, listed, ?_⟩
    unfold Capture.leave
    have found : ({ c with hist := c.hist.set j ((c.hist[j]).filter (· != x)) } : Capture).frame? x = some g := frame
    simp only [found, unpinned, if_true]
  next => exact .inl rfl

theorem State.keeps_reclaim (s : State) (x : Option (Fin 8 × Nat)) (lines : Vector Line 8) :
    s.Keeps x { s with capture := s.capture.reclaim lines } x := by
  obtain same | ⟨j, a, listed, left⟩ := s.capture.reclaim_spec lines
  · rw [same]; exact .refl s x
  · rw [left]
    refine s.keeps_leave_hist x j ((s.capture.hist[j]).filter (· != a)) [a] List.filter_sublist (fun b hb => ?_)
      fun _ b hb again => ?_
    · rwa [List.mem_singleton.mp hb]
    · rw [List.mem_singleton.mp hb] at again
      simpa using (List.mem_filter.mp again).2

/-- A reclaim does not concern the frames in reception. -/
theorem State.Placed.reclaim_frame {s : State} {x : Option (Fin 8 × Nat)} (h : s.Placed x) (lines : Vector Line 8)
    {i : Fin 8} {id : Nat} (hid : id ∈ s.reception x i) :
    (s.capture.reclaim lines).frame? id = s.capture.frame? id := by
  obtain same | ⟨j, a, listed, left⟩ := s.capture.reclaim_spec lines
  · rw [same]
  · rw [left]
    refine Capture.leave_frame_other _ a id fun e => ?_
    have listed : id ∈ s.capture.named (s.reception x) .inHistory j := e ▸ listed
    exact Place.noConfusion (Capture.Placed.named_unique h (p := .inReception) (q := .inHistory) hid listed).1

/-! ### The slot of the frame in reception (R26) -/

theorem Line.heldSlot_of {l : Line} {cur : CurrentFrame} (h : l.current = some cur) : l.heldSlot = cur.slot := by
  unfold Line.heldSlot
  rw [h]
  rfl

theorem State.reception_of_line (s : State) (x : Option (Fin 8 × Nat)) (i : Fin 8) (l : Line) (c : Capture) (j : Fin 8) :
    (({ s with capture := c } : State).setLine i l).reception x j
      = if j = i then classedOf x i ++ l.unplaced else s.reception x j := by
  unfold State.reception
  split
  next here => subst here; rw [State.setLine_same]
  next other => rw [State.setLine_other _ i j other]

/-- The frame in reception of a line takes a slot with its first stored byte (R26). -/
theorem State.keeps_slotClaim (s : State) (i : Fin 8) {l : Line} {p : Nat} {rest : List Nat} {m : Memory}
    (free : s.capture.free = p :: rest) (mem : s.capture.mem.wf = true → m.wf = true)
    (awaiting : l.awaiting = s.lines[i].awaiting) (none_held : s.lines[i].heldSlot = none)
    (slot : l.heldSlot = some (lowestFree 0 s.capture.slots)) :
    s.Keeps none (({ s with capture := { s.capture with
      free := rest, slots := insertKey (lowestFree 0 s.capture.slots) (.begun i p) s.capture.slots, mem := m } }
        : State).setLine i l) none := by
  let id := lowestFree 0 s.capture.slots
  let d : Capture := { s.capture with free := rest, slots := insertKey id (.begun i p) s.capture.slots, mem := m }
  have same : d.frame? id = some (.begun i p) := lookupKey_insertKey_same id _ _
  have other (j : Nat) (here : j ≠ id) : d.frame? j = s.capture.frame? j := lookupKey_insertKey_other id j here _ _
  have empty (rising : risingKeys s.capture.slots = true) : s.capture.frame? id = none :=
    (lookupKey_lowestFree s.capture.slots 0 rising fun _ _ => Nat.zero_le _).1
  refine ⟨fun h => ?_, fun placed => ⟨?_, fun whole => ?_, fun agree => ?_⟩⟩
  · rw [State.memoriesCanonical_iff] at h ⊢
    exact ⟨mem h.1, h.2⟩
  · have new {q : Place} {j : Fin 8} {a : Nat} (ha : a ∈ s.capture.named (s.reception none) q j) : a ≠ id := by
      rintro rfl
      obtain ⟨f, frame, -⟩ := Capture.Placed.frame placed ha
      exact Option.some_ne_none f (frame.symm.trans (empty placed.1))
    have old (q : Place) (j : Fin 8) : d.Lists q j (s.capture.named (s.reception none) q j) :=
      (placed.2 q j).sublist (.refl _) fun a ha => Capture.stays_of_same (other a (new ha))
    refine ⟨insertKey_rising id _ _ placed.1, fun q j => ?_⟩
    cases q
    case inReception =>
      change d.Lists .inReception j (State.reception _ none j)
      rw [s.reception_of_line none i l d j]
      split
      next here =>
        subst here
        have unplaced : l.unplaced = s.reception none j ++ [id] := by
          unfold State.reception Line.unplaced
          rw [awaiting, slot, none_held]
          simp only [classedOf_none, Option.toList_some, Option.toList_none, List.append_nil, List.nil_append]
          rfl
        rw [classedOf_none, List.nil_append, unplaced]
        exact Capture.Lists.append_singleton (old .inReception j) (fun again => new (q := .inReception) again rfl)
          (Capture.holdsAt_iff.mpr ⟨_, same, rfl, rfl⟩)
      next => exact old .inReception j
    case inHistory => exact old .inHistory j
    case handedOut => exact old .handedOut j
    case detached => exact old .detached j
  · refine Capture.pages_added (g := .begun i p) (empty whole.2) rfl ?_ whole
    rw [free]
    exact List.perm_append_comm
  · refine ⟨(agree.added (d := d) (empty ?_) rfl rfl Place.noConfusion).1, (agree.added (d := d) (empty ?_) rfl rfl
      Place.noConfusion).2⟩
    all_goals exact placed.1

/-- The frame in reception of a line is changed in its slot: a further byte, perhaps with a further page (R27). -/
theorem State.keeps_slotGrows (s : State) (i : Fin 8) {l : Line} {id : Nat} {f g : Frame} {free : List Nat} {m : Memory}
    (frame : s.capture.frame? id = some f) (mem : s.capture.mem.wf = true → m.wf = true)
    (pages : (free ++ g.pages).Perm (s.capture.free ++ f.pages))
    (same : g.line = f.line ∧ g.place = f.place ∧ g.pins = f.pins)
    (line : s.lines[i].SameFrames l) :
    s.Keeps none (({ s with capture := { s.capture with
      free := free, slots := insertKey id g s.capture.slots, mem := m } } : State).setLine i l) none := by
  let d : Capture := { s.capture with free := free, slots := insertKey id g s.capture.slots, mem := m }
  obtain ⟨sameLine, samePlace, samePins⟩ := same
  have stays (j : Nat) : s.capture.Stays d j := by
    by_cases here : j = id
    · subst here
      intro f' frame'
      obtain rfl := Option.some.inj (frame.symm.trans frame')
      exact ⟨g, lookupKey_insertKey_same j g _, sameLine, samePlace⟩
    · exact Capture.stays_of_same (lookupKey_insertKey_other id j here _ _)
  refine ⟨fun h => ?_, fun placed => ⟨?_, fun whole => ?_, fun agree => ?_⟩⟩
  · rw [State.memoriesCanonical_iff] at h ⊢
    exact ⟨mem h.1, h.2⟩
  · refine Capture.Placed.sublists placed (insertKey_rising id g _ placed.1) (fun p j => ?_) fun _ _ j _ => stays j
    cases p
    case inReception =>
      change (State.reception _ none j).Sublist (s.reception none j)
      rw [s.reception_of_line none i l d j]
      split
      next here => subst here; exact (List.Sublist.refl _).append line
      next => exact .refl _
    all_goals exact .refl _
  · exact Capture.pages_replaced frame rfl pages whole
  · obtain ⟨-, detached, reception⟩ := agree.2 id f frame
    refine agree.replaced (d := d) frame rfl samePins ?_ ?_
    · rw [samePlace, samePins]; exact detached
    · rw [samePlace, samePins]; exact reception

/-- The frame in reception of a line takes one more page, perhaps of a frame that is reclaimed for it (R27, R40). -/
theorem State.keeps_pageClaim (s : State) (i : Fin 8) {l : Line} {id p : Nat} {f : Frame} {e : Capture}
    {lines : Vector Line 8} (frame : s.capture.frame? id = some f) (granted : s.capture.grantPage lines = some (p, e))
    (b : Byte) (held : s.lines[i].heldSlot = some id) (line : s.lines[i].SameFrames l) :
    s.Keeps none (({ s with capture :=
      { (e.putFrame id { f with length := f.length + 1, pages := f.pages ++ [p] }) with
        mem := e.mem.write (p * Config.pageSize) b } } : State).setLine i l) none := by
  obtain ⟨r, source, free, only⟩ := Capture.grantPage_spec granted
  have first : s.Keeps none { s with capture := r } none := by
    obtain rfl | rfl := source
    · exact .refl s none
    · exact s.keeps_reclaim none lines
  refine ⟨fun m => ?_, fun placed => ?_⟩
  · have m := first.1 m
    rw [State.memoriesCanonical_iff] at m ⊢
    rw [only]
    exact ⟨Memory.write_wf _ _ b m.1, m.2⟩
  · have mine : id ∈ s.reception none i := by
      unfold State.reception Line.unplaced
      rw [held]
      simp
    have found : r.frame? id = some f := by
      obtain rfl | rfl := source
      · exact frame
      · exact (placed.reclaim_frame lines mine).trans frame
    have pages : (e.free ++ (f.pages ++ [p])).Perm (r.free ++ f.pages) := by
      rw [free, ← List.append_assoc]
      exact List.perm_append_comm
    have grows := State.keeps_slotGrows { s with capture := r } i (l := l) found (Memory.write_wf _ (p * Config.pageSize) b)
      (g := { f with length := f.length + 1, pages := f.pages ++ [p] }) pages ⟨rfl, rfl, rfl⟩ line
    rw [only]
    exact (first.trans grows).2 placed

/-- A stored byte takes what it claims of capture memory. -/
theorem State.keeps_claimByte (s : State) (i : Fin 8) {cur next : CurrentFrame} {b : Byte} {id : Nat} {c : Capture}
    (held : cur.slot = s.lines[i].heldSlot) (claim : s.claimByte i cur b = some (id, c)) (slot : next.slot = some id) :
    s.Keeps none (({ s with capture := c } : State).setCurrent i next) none := by
  have nextHeld : ({ s.lines[i] with current := some next } : Line).heldSlot = some id := slot
  unfold State.claimByte at claim
  split at claim
  next empty =>
    unfold Capture.storeFirst at claim
    split at claim
    next p d granted =>
      obtain ⟨e, source, free, only⟩ := Capture.grantPage_spec granted
      obtain ⟨rfl, rfl⟩ := Prod.mk.inj (Option.some.inj claim)
      have first : s.Keeps none { s with capture := e } none := by
        obtain rfl | rfl := source
        · exact .refl s none
        · exact s.keeps_reclaim none s.lines
      refine first.trans ?_
      rw [only]
      exact State.keeps_slotClaim { s with capture := e } i free (Memory.write_wf _ _ b) rfl (held.symm.trans empty)
        (by rw [nextHeld, only])
    next => exact (Option.some_ne_none _ claim.symm).elim
  next a slotted =>
    obtain ⟨d, stored, pair⟩ := Option.map_eq_some_iff.mp claim
    obtain ⟨rfl, rfl⟩ := Prod.mk.inj pair
    have lineHeld : s.lines[i].SameFrames { s.lines[i] with current := some next } :=
      Line.sameFrames_of rfl (.inr (nextHeld.trans (slotted.symm.trans held)))
    unfold Capture.storeNext at stored
    split at stored
    · exact (Option.some_ne_none _ stored.symm).elim
    next f frame =>
      split at stored
      next =>
        split at stored
        next p e granted =>
          obtain rfl := Option.some.inj stored
          exact s.keeps_pageClaim i frame granted b (held.symm.trans slotted) lineHeld
        next => exact (Option.some_ne_none _ stored.symm).elim
      next =>
        obtain rfl := Option.some.inj stored
        exact State.keeps_slotGrows s i frame (Memory.write_wf _ _ b) (.refl _) ⟨rfl, rfl, rfl⟩ lineHeld

end Sys2Proof.Machine
end

section
/-! PROOFS. What the events of a line keep, continued: ends of frames, characters by mode, the idle timer (R5 to R14). -/

namespace Sys2Proof.Machine

/-! ### Lines that leave their frame in reception -/

theorem Line.quiet_held (l : Line) : l.quiet.heldSlot = none ∧ l.quiet.awaiting = l.awaiting := ⟨rfl, rfl⟩

theorem Line.pass_held (r : Reception) (left : Option Nat) (l : Line) :
    (l.pass r left).heldSlot = none ∧ (l.pass r left).awaiting = l.awaiting := by
  unfold Line.pass
  split
  · exact l.quiet_held
  · exact ⟨rfl, rfl⟩

theorem Line.toHunt_held (l : Line) : l.toHunt.heldSlot = none ∧ l.toHunt.awaiting = l.awaiting := l.pass_held .hunt none

theorem Line.toDiscard_held (left : Option Nat) (l : Line) :
    (l.toDiscard left).heldSlot = none ∧ (l.toDiscard left).awaiting = l.awaiting := by
  unfold Line.toDiscard
  split
  · exact l.toHunt_held
  · exact l.pass_held .discarding left

theorem Line.sameFrames_of_held {l m : Line} (h : m.heldSlot = none ∧ m.awaiting = l.awaiting) : l.SameFrames m :=
  Line.sameFrames_of h.2 (.inl h.1)

/-- A frame that begins has no slot yet. -/
theorem Line.sameFrames_begin (t : Timebase) (l : Line) : l.SameFrames (l.begin t) := by
  unfold Line.begin
  split
  · exact Line.sameFrames_of rfl (.inl rfl)
  · exact .refl l

/-! ### Ends of frames (R12 to R14) -/

theorem Line.countFollowed_frames (cur : CurrentFrame) (l : Line) :
    (l.countFollowed cur).heldSlot = l.heldSlot ∧ (l.countFollowed cur).awaiting = l.awaiting := by
  unfold Line.countFollowed
  split
  · exact ⟨rfl, rfl⟩
  · split <;> exact ⟨rfl, rfl⟩

theorem State.modLine_modLine (s : State) (i : Fin 8) (f g : Line → Line) :
    (s.modLine i f).modLine i g = s.modLine i fun l => g (f l) := by
  change (s.modLine i f).setLine i (g (s.modLine i f).lines[i]) = s.setLine i _
  rw [State.modLine_same]
  simp only [State.modLine, State.setLine, Vector.set_set]

/-- The frame in reception of a line ends, and the line leaves it: a completed frame awaits classification. -/
theorem State.keeps_endFrame (s : State) (i : Fin 8) (cur : CurrentFrame) (last : Stamp) (cut broken : Bool)
    {g : Line → Line} (held : cur.slot = s.lines[i].heldSlot)
    (leaves : ∀ l : Line, (g l).heldSlot = none ∧ (g l).awaiting = l.awaiting) :
    s.Keeps none ((s.endFrame i cur last cut broken).modLine i g) none := by
  have forgets (t : State) : t.Keeps none (t.modLine i g) none :=
    (t.sameFrames_modLine i (Line.sameFrames_of_held (leaves _))).keeps none
  unfold State.endFrame
  split
  next id _ slot =>
    split
    · exact forgets s
    next f frame =>
      dsimp only
      rw [State.modLine_modLine]
      refine State.keeps_slotGrows s i frame (fun m => m) (.refl _) ⟨rfl, rfl, rfl⟩ ?_
      have left := leaves (Line.handOn id (isBad (f.completed s.lines[i] cur last cut broken (s.capture.frameBytes f)).check
        (f.completed s.lines[i] cur last cut broken (s.capture.frameBytes f)).flags) cut s.lines[i])
      unfold Line.SameFrames Line.unplaced
      refine List.Sublist.trans (l₂ := s.lines[i].awaiting ++ [id]) ?_ ?_
      · refine Eq.subst (motive := fun a => (a : List Nat).Sublist (s.lines[i].awaiting ++ [id])) ?_ (.refl _)
        rw [show ∀ l : Line, (g l).heldSlot = none from fun l => (leaves l).1]
        rw [Option.toList_none, List.append_nil]
        exact left.2.symm
      · rw [← held, slot]
        exact .refl _
  · exact forgets s
  · rw [State.modLine_modLine]
    refine (s.sameFrames_modLine i (Line.sameFrames_of_held ?_)).keeps none
    exact ⟨(leaves _).1, (leaves _).2.trans (Line.countFollowed_frames cur _).2⟩

/-- The slot of the frame in reception is freed, and the line leaves it. -/
theorem State.keeps_slotFreed (s : State) (i : Fin 8) {id : Nat} {g : Line → Line} (held : s.lines[i].heldSlot = some id)
    (leaves : ∀ l : Line, (g l).heldSlot = none ∧ (g l).awaiting = l.awaiting) :
    s.Keeps none (({ s with capture := s.capture.freeFrame id } : State).modLine i g) none := by
  cases frame : s.capture.frame? id with
  | none =>
    have same : s.capture.freeFrame id = s.capture := by unfold Capture.freeFrame; rw [frame]
    rw [same]
    exact (s.sameFrames_modLine i (Line.sameFrames_of_held (leaves _))).keeps none
  | some f =>
    rw [Capture.freeFrame_of_frame frame]
    let d : Capture := { s.capture with free := s.capture.free ++ f.pages, slots := eraseKey id s.capture.slots }
    let t : State := ({ s with capture := d } : State).modLine i g
    have mine : s.reception none i = s.lines[i].awaiting ++ [id] := by
      unfold State.reception Line.unplaced
      rw [held]
      simp
    have fewer (j : Fin 8) : (t.reception none j).Sublist (s.reception none j) ∧ ((s.reception none i).Nodup →
        j = i → id ∉ t.reception none j) := by
      have now := s.reception_of_line none i (g s.lines[i]) d j
      change t.reception none j = _ at now
      rw [now]
      by_cases here : j = i
      · subst here
        rw [if_pos rfl, mine]
        unfold Line.unplaced
        rw [(leaves _).1, (leaves _).2]
        simp only [classedOf_none, Option.toList_none, List.append_nil, List.nil_append]
        exact ⟨List.sublist_append_left _ _, fun once _ again =>
          (List.nodup_append.mp once).2.2 id again id (List.mem_singleton_self id) rfl⟩
      · rw [if_neg here]
        exact ⟨.refl _, fun _ h => (here h).elim⟩
    have listed : id ∈ s.capture.named (s.reception none) .inReception i := by
      change id ∈ s.reception none i
      rw [mine]
      exact List.mem_append_right _ (List.mem_singleton_self id)
    refine ⟨fun m => ?_, fun placed => ⟨?_, fun whole => ?_, fun agree => ?_⟩⟩
    · rw [State.memoriesCanonical_iff] at m ⊢
      exact m
    · have lists (p : Place) (j : Fin 8) : (d.named (t.reception none) p j).Sublist
          (s.capture.named (s.reception none) p j) := by
        cases p
        case inReception => exact (fewer j).1
        all_goals exact .refl _
      refine Capture.Placed.sublists placed (eraseKey_rising id _ placed.1) lists fun p j a ha => ?_
      refine Capture.stays_of_same (lookupKey_eraseKey_other id a ?_ _)
      rintro rfl
      obtain ⟨rfl, rfl⟩ := placed.named_unique listed ((lists p j).subset ha)
      exact (fewer i).2 (placed.2 .inReception i).1 rfl ha
    · exact Capture.pages_removed frame rfl rfl whole
    · obtain ⟨f', frame', place, -⟩ := placed.frame listed
      obtain rfl := Option.some.inj (frame.symm.trans frame')
      exact agree.removed (d := d) frame rfl ((agree.2 id f frame).2.2 place (isClassed_none id))

/-- The frame in reception of a line is abandoned, and its pages are free (R6). -/
theorem State.keeps_abandonFrame (s : State) (i : Fin 8) (cur : CurrentFrame) (held : cur.slot = s.lines[i].heldSlot) :
    s.Keeps none (s.abandonFrame i cur) none := by
  have leaves (l : Line) := Line.toDiscard_held (cur.total.map fun n => n - (cur.count + 1))
    { l with counters := { l.counters with lost := l.counters.lost + 1 }, attention := true }
  unfold State.abandonFrame
  cases slot : cur.slot with
  | none => exact (State.sameFrames_modLine s i (Line.sameFrames_of_held (leaves _))).keeps none
  | some id => exact s.keeps_slotFreed i (held.symm.trans slot) leaves

/-! ### A byte of a frame (R5, R6, R11) -/

theorem Line.totalWith_slot (l : Line) (cur : CurrentFrame) (b : Byte) : (l.totalWith cur b).slot = cur.slot := by
  unfold Line.totalWith
  split <;> rfl

theorem State.keeps_frameByte (s : State) (i : Fin 8) (cur : CurrentFrame) (b : Byte) (errored : Bool)
    (held : cur.slot = s.lines[i].heldSlot) : s.Keeps none (s.frameByte i cur b errored).1 none := by
  unfold State.frameByte
  split
  · exact (s.sameFrames_modLine i (Line.sameFrames_of rfl (.inl rfl))).keeps none
  · split
    · exact s.keeps_endFrame i cur cur.storedAt true false held (Line.toDiscard_held none)
    · split
      · exact s.keeps_abandonFrame i cur held
      next id c claim => exact s.keeps_claimByte i held claim rfl

/-! ### The framing modes (R7 to R11) -/

theorem State.keeps_begin (s : State) (i : Fin 8) (t : Timebase) : s.Keeps none (s.modLine i (Line.begin t)) none :=
  (s.sameFrames_modLine i (Line.sameFrames_begin t _)).keeps none

theorem State.keeps_beginInHunt (s : State) (i : Fin 8) :
    s.Keeps none (if s.lines[i].reception = .hunt then s.modLine i (Line.begin s.time) else s) none := by
  split
  · exact s.keeps_begin i s.time
  · exact .refl s none

theorem State.keeps_endToHunt (s : State) (i : Fin 8) (cur : CurrentFrame) (last : Stamp) (broken : Bool)
    (held : cur.slot = s.lines[i].heldSlot) : s.Keeps none (s.endToHunt i cur last broken) none :=
  s.keeps_endFrame i cur last false broken held Line.toHunt_held

theorem State.keeps_gapCharacter (s : State) (i : Fin 8) (b : Byte) (errored : Bool) :
    s.Keeps none (s.gapCharacter i b errored) none := by
  unfold State.gapCharacter
  refine (s.keeps_beginInHunt i).trans ?_
  generalize (if s.lines[i].reception = .hunt then s.modLine i (Line.begin s.time) else s) = t
  dsimp only
  split
  next cur _ current => exact t.keeps_frameByte i cur b errored (Line.heldSlot_of current).symm
  next => exact .refl t none

theorem State.keeps_markedInside (s : State) (i : Fin 8) (cur : CurrentFrame) (b : Byte) (errored : Bool)
    (current : s.lines[i].current = some cur) : s.Keeps none (s.markedInside i cur b errored) none := by
  have held : cur.slot = s.lines[i].heldSlot := (Line.heldSlot_of current).symm
  unfold State.markedInside
  dsimp only
  split_ifs
  · refine ((s.sameFrames_modLine i (f := fun l => { l with escape := false }) (.refl _)).keeps none).trans ?_
    refine State.keeps_frameByte _ i cur _ errored ?_
    rw [State.modLine_same]
    exact held
  · exact s.keeps_frameByte i cur b errored held
  · exact s.keeps_endToHunt i cur _ false held
  · exact (s.keeps_endToHunt i cur _ true held).trans (State.keeps_begin _ i s.time)
  · refine (s.sameFrames_modLine i ?_).keeps none
    exact Line.sameFrames_of (m := { s.lines[i] with
      escape := true, current := some { cur with lastAt := s.time.elapsed } }) rfl (.inr held)
  · exact s.keeps_frameByte i cur b errored held

theorem Line.sameFrames_markedDiscard (t : Timebase) (b : Byte) (errored : Bool) (l : Line) :
    l.SameFrames (l.markedDiscard t b errored) := by
  unfold Line.markedDiscard
  split_ifs
  · exact .refl l
  · exact .refl l
  · exact Line.sameFrames_begin t l
  · exact Line.sameFrames_of_held l.toHunt_held
  · exact .refl l
  · exact .refl l

theorem State.keeps_markedCharacter (s : State) (i : Fin 8) (b : Byte) (errored : Bool) :
    s.Keeps none (s.markedCharacter i b errored) none := by
  unfold State.markedCharacter
  split
  next cur _ current => exact s.keeps_markedInside i cur b errored current
  · exact (s.sameFrames_modLine i (Line.sameFrames_markedDiscard _ _ _ _)).keeps none
  · split
    · exact s.keeps_begin i s.time
    · exact .refl s none
  · exact .refl s none

theorem State.keeps_countedEnd (s : State) (i : Fin 8) (cur : CurrentFrame) (held : cur.slot = s.lines[i].heldSlot) :
    s.Keeps none (s.countedEnd i cur) none := by
  unfold State.countedEnd
  dsimp only
  split
  · exact .refl s none
  · split_ifs
    · exact s.keeps_endToHunt i cur _ true held
    · exact s.keeps_endToHunt i cur _ false held
    · exact s.keeps_endFrame i cur _ true false held (Line.toDiscard_held _)
    · exact .refl s none

theorem State.keeps_countedByte (s : State) (i : Fin 8) (cur : CurrentFrame) (b : Byte) (errored : Bool)
    (held : cur.slot = s.lines[i].heldSlot) : s.Keeps none (s.countedByte i cur b errored) none := by
  have byte := s.keeps_frameByte i (s.lines[i].totalWith cur b) b errored ((Line.totalWith_slot _ cur b).trans held)
  unfold State.countedByte
  refine byte.trans ?_
  dsimp only
  split
  next next_ _ current => exact State.keeps_countedEnd _ i next_ (Line.heldSlot_of current).symm
  next => exact .refl _ none

theorem Line.sameFrames_passOne (l : Line) : l.SameFrames l.passOne := by
  unfold Line.passOne
  split
  · exact .refl l
  · exact Line.sameFrames_of_held l.toHunt_held
  · exact .refl l

theorem State.keeps_countedCharacter (s : State) (i : Fin 8) (b : Byte) (errored : Bool) :
    s.Keeps none (s.countedCharacter i b errored) none := by
  unfold State.countedCharacter
  split
  · exact (s.sameFrames_modLine i (Line.sameFrames_passOne _)).keeps none
  · refine (s.keeps_beginInHunt i).trans ?_
    generalize (if s.lines[i].reception = .hunt then s.modLine i (Line.begin s.time) else s) = t
    dsimp only
    split
    next cur _ current => exact t.keeps_countedByte i cur b errored (Line.heldSlot_of current).symm
    next => exact .refl t none

theorem State.keeps_character (s : State) (i : Fin 8) (b : Byte) (errored : Bool) :
    s.Keeps none (s.character i b errored) none := by
  unfold State.character
  split
  · exact s.keeps_gapCharacter i b errored
  · exact s.keeps_markedCharacter i b errored
  · exact s.keeps_countedCharacter i b errored

/-! ### The events of a line -/

theorem State.sameFrames_endLineEvent (old s : State) (i : Fin 8) : s.SameFrames (State.endLineEvent old s i) :=
  (s.sameFrames_modLine i (Line.sameFrames_finishStop _)).trans (State.sameFrames_conclude old _)

theorem State.keeps_paced (s : State) (i : Fin 8) {event : State → State} (h : ∀ u : State, u.Keeps none (event u) none) :
    s.Keeps none (s.paced i event) none := by
  unfold State.paced
  split
  · exact h s
  · exact (s.keeps_classify i).trans (h _)

theorem State.keeps_completeCharacter (s : State) (i : Fin 8) (bits : Byte) (parityBit stopHigh : Bool) :
    s.Keeps none (s.completeCharacter i bits parityBit stopHigh) none := by
  unfold State.completeCharacter
  refine State.Keeps.trans ?_ ((State.sameFrames_endLineEvent s _ i).keeps none)
  refine State.Keeps.trans ?_ (State.keeps_character _ i _ _)
  exact (s.sameFrames_modLine i (.refl _)).keeps none

theorem State.keeps_idleExpires (s : State) (i : Fin 8) : s.Keeps none (s.idleExpires i) none := by
  unfold State.idleExpires
  refine State.Keeps.trans ?_ ((State.sameFrames_endLineEvent s _ i).keeps none)
  have stopped : s.Keeps none (s.modLine i fun l => { l with idle := none }) none :=
    (s.sameFrames_modLine i (.refl _)).keeps none
  refine stopped.trans ?_
  split
  next cur _ current =>
    refine State.keeps_endToHunt _ i cur cur.lastAt _ ?_
    rw [State.modLine_same]
    exact (Line.heldSlot_of current).symm
  · exact (State.sameFrames_modLine _ i (Line.sameFrames_of_held (Line.toHunt_held _))).keeps none
  · exact .refl _ none

end Sys2Proof.Machine
end

section
/-! PROOFS. What every command keeps, and the statements on memories, frames, pages and pins (R25, R26, R28 to R30, R34,
R36 to R38, R71, R97). -/

namespace Sys2Proof.Machine

/-! ### Requests (R179 to R181) -/

theorem State.keeps_link (s : State) (l : Link) : s.Keeps none { s with link := l } none :=
  State.SameFrames.keeps (.of_eq rfl rfl rfl fun _ => rfl) none

theorem State.keeps_answer (s : State) (q : Req) (halt : Bool) {body : State → State × Answer}
    (h : ∀ u : State, u.Keeps none (body u).1 none) : s.Keeps none (s.answer q halt body) none := by
  have begins (l : Link) (k : Nat) : s.Keeps none { s with link := l, freeKey := k } none :=
    State.SameFrames.keeps (.of_eq rfl rfl rfl fun _ => rfl) none
  unfold State.answer
  split
  · exact ((begins _ _).trans (h _)).trans (State.keeps_link _ _)
  · exact ((begins s.link _).trans (h _)).trans (State.keeps_link _ _)

theorem State.keeps_request (s : State) (q : Req) {run : State → State} (h : ∀ u : State, u.Keeps none (run u) none) :
    s.Keeps none (s.request q run) none := by
  unfold State.request
  split
  · exact h s
  · dsimp only
    split
    · exact (s.keeps_link _).trans (h _)
    · exact s.keeps_link _

theorem State.keeps_serve (s : State) (i : Instr) {body : State → State × Answer}
    (h : ∀ u : State, u.Keeps none (body u).1 none) : s.Keeps none (s.serve i body) none :=
  s.keeps_request _ fun u => u.keeps_answer _ false h

theorem State.keeps_serveRead (s : State) (i : Instr) (check : State → Except Result ReadJob) :
    s.Keeps none (s.serveRead i check) none := by
  refine s.keeps_request _ fun u => ?_
  split
  · exact State.SameFrames.keeps (.of_eq rfl rfl rfl fun _ => rfl) none
  · exact u.keeps_answer _ false fun v => .refl v none

/-! ### Bodies of requests -/

theorem configureLineBody_keeps (line : Byte) (cfg : LineArg) (s : State) :
    s.Keeps none (configureLineBody line cfg s).1 none := by
  unfold configureLineBody
  split
  · exact .refl s none
  next i _ =>
    split
    · exact .refl s none
    · split
      · exact .refl s none
      next c _ =>
        refine State.Keeps.trans ?_ ((State.sameFrames_conclude s _).keeps none)
        exact (s.keeps_emptyHistory i).trans ((State.sameFrames_modLine _ i (.refl _)).keeps none)

theorem Line.startReception_held (now : Stamp) (pinHigh : Bool) (l : Line) :
    (l.startReception now pinHigh).heldSlot = none ∧ (l.startReception now pinHigh).awaiting = l.awaiting := by
  unfold Line.startReception
  split <;> exact ⟨rfl, rfl⟩

theorem startLineBody_keeps (line : Byte) (pinHigh : Bool) (s : State) :
    s.Keeps none (startLineBody line pinHigh s).1 none := by
  unfold startLineBody
  split
  · exact .refl s none
  next i _ =>
    split
    · exact .refl s none
    · refine State.SameFrames.keeps (State.SameFrames.trans ?_ (State.sameFrames_conclude s _)) none
      exact s.sameFrames_modLine i (Line.sameFrames_of_held (Line.startReception_held _ _ _))

theorem Line.sameFrames_stop (l : Line) : l.SameFrames l.stop := by
  unfold Line.stop
  split
  · exact .refl l
  · split <;> exact Line.sameFrames_of_held ⟨rfl, rfl⟩

theorem stopLineBody_keeps (line : Byte) (s : State) : s.Keeps none (stopLineBody line s).1 none := by
  unfold stopLineBody
  split
  · exact .refl s none
  next i _ =>
    split
    · exact .refl s none
    · refine State.SameFrames.keeps (State.SameFrames.trans ?_ (State.sameFrames_conclude s _)) none
      exact s.sameFrames_modLine i (f := Line.stop) (Line.sameFrames_stop _)

theorem getLineCountsBody_keeps (line clear : Byte) (s : State) :
    s.Keeps none (getLineCountsBody line clear s).1 none := by
  unfold getLineCountsBody
  split
  next i c _ _ =>
    dsimp only
    split
    · exact (s.sameFrames_modLine i (.refl _)).keeps none
    · exact .refl s none
  · exact .refl s none

theorem setPoolMarkBody_keeps (mark : Half) (s : State) : s.Keeps none (setPoolMarkBody mark s).1 none := by
  unfold setPoolMarkBody
  split
  · exact .refl s none
  · refine State.SameFrames.keeps (State.SameFrames.trans ?_ (State.sameFrames_announce s _)) none
    refine State.SameFrames.trans (t := { s with capture := { s.capture with lowMark := mark.toNat } }) ?_
      (State.sameFrames_setPressure _ _)
    exact ⟨rfl, rfl, rfl, rfl, fun m => m, fun _ => .refl _, fun _ => rfl, fun _ m => m⟩

theorem writeEntryBody_keeps (entry : Byte) (body : EntryDef) (s : State) :
    s.Keeps none (writeEntryBody entry body s).1 none := by
  unfold writeEntryBody
  split
  · exact .refl s none
  · split
    · exact State.SameFrames.keeps (.of_eq rfl rfl rfl fun _ => rfl) none
    · exact .refl s none

theorem readEntryBody_keeps (entry : Byte) (s : State) : s.Keeps none (readEntryBody entry s).1 none := by
  unfold readEntryBody
  split <;> exact .refl s none

theorem clearEntryBody_keeps (entry : Byte) (s : State) : s.Keeps none (clearEntryBody entry s).1 none := by
  unfold clearEntryBody
  split
  · exact .refl s none
  · exact State.SameFrames.keeps (.of_eq rfl rfl rfl fun _ => rfl) none

theorem forceTriggerBody_keeps (entry : Byte) (s : State) : s.Keeps none (forceTriggerBody entry s).1 none := by
  unfold forceTriggerBody
  split
  · exact .refl s none
  · split
    · split
      · exact .refl s none
      next t opened =>
        exact (s.keeps_openIncident _ (fun _ h => (Option.some_ne_none _ h.symm).elim) opened).trans
          ((State.sameFrames_settleEvent s t).keeps none)
    · exact .refl s none

theorem closeIncidentBody_keeps (id : Half) (s : State) : s.Keeps none (closeIncidentBody id s).1 none := by
  unfold closeIncidentBody
  split
  · exact .refl s none
  next k _ =>
    split
    · exact ((s.sameFrames_closeIncident k .host).trans (State.sameFrames_settleEvent s _)).keeps none
    · exact .refl s none

theorem cancelIncidentBody_keeps (id : Half) (s : State) : s.Keeps none (cancelIncidentBody id s).1 none := by
  unfold cancelIncidentBody
  split
  · exact .refl s none
  next k _ =>
    split
    · exact .refl s none
    next n here =>
      split
      · exact (s.sameFrames_setIncident k (n := { n with cancelPending := true }) here rfl).keeps none
      · refine (s.keeps_abandon k .cancelled).trans ?_
        refine State.SameFrames.keeps (State.SameFrames.trans ?_ (State.sameFrames_settleEvent s _)) none
        exact .of_eq rfl rfl rfl fun _ => rfl

theorem listFramesBody_keeps (line list present : Byte) (after : Half) (max : Byte) (s : State) :
    s.Keeps none (listFramesBody line list present after max s).1 none := by
  unfold listFramesBody
  split
  · exact .refl s none
  · split
    · exact .refl s none
    · split <;> exact .refl s none

theorem readFrameBody_keeps (line : Byte) (seq : Half) (s : State) : s.Keeps none (readFrameBody line seq s).1 none := by
  unfold readFrameBody
  split
  · exact .refl s none
  · split <;> exact .refl s none

theorem takeFramesBody_keeps (line count : Byte) (s : State) : s.Keeps none (takeFramesBody line count s).1 none := by
  unfold takeFramesBody
  split
  · split
    · exact .refl s none
    · exact s.keeps_take _ _
  · exact .refl s none

theorem Line.sameFrames_resume (l : Line) (total : Nat) (pressure : Bool) : l.SameFrames (l.resume total pressure) := by
  unfold Line.resume
  split <;> exact .refl _

theorem releaseFramesBody_keeps (line : Byte) (seq : Half) (s : State) :
    s.Keeps none (releaseFramesBody line seq s).1 none := by
  unfold releaseFramesBody
  split
  · exact .refl s none
  next i _ =>
    split
    · exact .refl s none
    · split
      · exact .refl s none
      · unfold State.release
        refine State.Keeps.trans ?_ ((State.sameFrames_announce s _).keeps none)
        refine State.Keeps.trans ?_ ((State.sameFrames_modLine _ i (Line.sameFrames_resume _ _ _)).keeps none)
        rw [State.evalPressure_eq]
        exact State.Keeps.trans (s.keeps_release i _) ((State.sameFrames_setPressure _ _).keeps none)

theorem listRecordsBody_keeps (first : Word) (filter max : Byte) (s : State) :
    s.Keeps none (listRecordsBody first filter max s).1 none := by
  unfold listRecordsBody
  split
  · exact .refl s none
  · split <;> exact .refl s none

theorem setNoticeMaskBody_keeps (kinds : Half) (lines : Byte) (s : State) :
    s.Keeps none (setNoticeMaskBody kinds lines s).1 none := by
  unfold setNoticeMaskBody
  split
  · exact .refl s none
  · exact State.keeps_link s _

/-! ### Resets (R24, R47, R70, R96, R117) -/

theorem State.sameFrames_cutArray (s : State) : s.SameFrames s.cutArray := by
  unfold State.cutArray
  split
  · exact .refl s
  · exact (s.sameFrames_modSector _ fun _ => Memory.undef_wf _).trans (.of_eq rfl rfl rfl fun _ => rfl)
  · exact (s.sameFrames_modSector _ (Memory.writeBytes_wf _ _ _)).trans (.of_eq rfl rfl rfl fun _ => rfl)

/-- A reset forgets every frame, and its page memory is given. -/
theorem State.keeps_cleared {s t : State} (m : Memory) (mem : s.capture.mem.wf = true → m.wf = true)
    (capture : t.capture = .reset m) (lines : t.lines = Vector.replicate 8 .reset) (inc : t.inc = .reset)
    (sectors : ∀ x : Fin 64, t.store.sectors[x].mem = s.store.sectors[x].mem) : s.Keeps none t none := by
  have line (i : Fin 8) : t.lines[i] = Line.reset := by simp [lines]
  have empty (id : Nat) : t.capture.frame? id = none := by rw [capture]; rfl
  have slot (k : Fin 4) : t.inc.table[k] = none := by simp [inc, Incidents.reset]
  refine ⟨fun h => ?_, fun _ => ⟨?_, fun _ => ?_, fun _ => ⟨fun k n here => ?_, fun id f frame => ?_⟩⟩⟩
  · rw [State.memoriesCanonical_iff] at h ⊢
    refine ⟨?_, fun x => sectors x ▸ h.2 x⟩
    rw [capture]
    exact mem h.1
  · refine ⟨by rw [capture]; rfl, fun p i => ?_⟩
    have named : t.capture.named (t.reception none) p i = [] := by
      cases p
      case inHistory => simp [Capture.named, capture, Capture.reset]
      case handedOut => simp [Capture.named, capture, Capture.reset]
      case inReception => simp [Capture.named, State.reception, line, Line.unplaced, Line.reset, Line.heldSlot]
      case detached => rfl
    rw [named]
    exact ⟨List.nodup_nil, fun _ h => (List.not_mem_nil h).elim⟩
  · unfold Capture.PagesWhole
    rw [capture, Capture.reset_free]
    exact ⟨List.Perm.of_eq (List.append_nil _), rfl⟩
  · exact (Option.some_ne_none n (here.symm.trans (slot k))).elim
  · exact (Option.some_ne_none f (frame.symm.trans (empty id))).elim

theorem State.keeps_hardReset (s : State) (straps : BitVec 2) : s.Keeps none (s.hardReset straps) none := by
  refine (s.sameFrames_cutArray.keeps none).trans ?_
  refine State.keeps_cleared ⟨.undef s.cutArray.freeKey, []⟩ (fun _ => Memory.undef_wf _)
    (s.hardReset_capture straps) rfl rfl fun x => ?_
  rw [State.hardReset_sector]
  rfl

theorem State.keeps_restart (s : State) : s.Keeps none s.restart none := by
  refine (s.sameFrames_cutArray.keeps none).trans ?_
  refine State.keeps_cleared s.cutArray.capture.mem (fun m => m) rfl rfl rfl fun x => ?_
  rw [State.restart_sector]
  rfl

/-! ### The commands -/

/-- What a command keeps when it answers a next state. -/
def KeepsFrames (s : State) (o : Host.Outcome State Fault Refusal) : Prop := ∀ t, o = .next t → s.Keeps none t none

theorem KeepsFrames.next {s t : State} (h : s.Keeps none t none) : KeepsFrames s (.next t) := by
  rintro u ⟨⟩
  exact h

theorem KeepsFrames.same {s t : State} (h : s.SameFrames t) : KeepsFrames s (.next t) := .next (h.keeps none)

theorem KeepsFrames.serve {s : State} (i : Instr) {body : State → State × Answer}
    (h : ∀ u : State, u.Keeps none (body u).1 none) : KeepsFrames s (.next (s.serve i body)) :=
  .next (s.keeps_serve i h)

theorem execCharacterCompletion_keeps (i : Fin 8) (bits : Byte) (parityBit stopHigh : Bool) (s : State) :
    KeepsFrames s (execCharacterCompletion i bits parityBit stopHigh s) := by
  unfold execCharacterCompletion
  dsimp only
  split
  · exact .next (s.keeps_paced i fun u => u.keeps_completeCharacter i bits parityBit stopHigh)
  · exact .next (.refl s none)

theorem State.sameFrames_advanceTo (s : State) (p : Stamp) : s.SameFrames (s.advanceTo p) :=
  .of_eq rfl rfl rfl fun _ => rfl

theorem execIdleTimerExpiry_keeps (i : Fin 8) (s : State) : KeepsFrames s (execIdleTimerExpiry i s) := by
  unfold execIdleTimerExpiry
  dsimp only
  split
  · exact .next (.refl s none)
  · split
    · exact .next (((s.sameFrames_advanceTo _).keeps none).trans (State.keeps_paced _ i fun u => u.keeps_idleExpires i))
    · exact .next (.refl s none)

/-- An opening by an external edge has no trigger frame (R63). -/
theorem opensOn_edge (time : Stamp) (x : Option (Fin 8 × Nat)) (e : Fin 16) : OpensOn x (edgeRequest time e) :=
  fun id named => (Option.some_ne_none id named.symm).elim

theorem State.keeps_fireEdge (s : State) (m : Matcher) (time : Stamp) (es : List (Fin 16)) :
    s.Keeps none (State.fire { s with matcher := m } (edgeRequest time) es).1 none := by
  have same : s.SameFrames { s with matcher := m } := .of_eq rfl rfl rfl fun _ => rfl
  exact (same.keeps none).trans (State.keeps_fire _ (opensOn_edge time none) es)

theorem execTrigInEdgeAccepted_keeps (s : State) : KeepsFrames s (execTrigInEdgeAccepted s) := by
  unfold execTrigInEdgeAccepted
  split
  · exact .next (.refl s none)
  next e _ =>
    refine .next (State.Keeps.trans ((s.sameFrames_advanceTo (pointAfterUs e.elapsed 1)).keeps none) ?_)
    exact State.Keeps.trans (State.keeps_fireEdge _ _ _ _) ((State.sameFrames_settleEvent _ _).keeps none)

theorem execPostTimerExpiry_keeps (k : Fin 4) (s : State) : KeepsFrames s (execPostTimerExpiry k s) := by
  unfold execPostTimerExpiry
  split
  · exact .next (.refl s none)
  next p _ =>
    exact .same ((s.sameFrames_advanceTo p).trans ((State.sameFrames_closeIncident _ k .time).trans
      (State.sameFrames_settleEvent _ _)))

theorem execHostByteReceived_keeps (byte : Option Byte) (s : State) : KeepsFrames s (execHostByteReceived byte s) := by
  unfold execHostByteReceived
  dsimp only
  split <;> exact .next (s.keeps_link _)

theorem execInterByteTimeout_keeps (s : State) : KeepsFrames s (execInterByteTimeout s) := by
  unfold execInterByteTimeout
  split
  · exact .next (.refl s none)
  all_goals exact .same (.of_eq rfl rfl rfl fun _ => rfl)

theorem execTxFrameEnd_keeps (s : State) : KeepsFrames s (execTxFrameEnd s) := by
  unfold execTxFrameEnd
  split
  · exact .next s.keeps_restart
  · split
    · exact .next (.refl s none)
    · exact .next (s.keeps_link _)

theorem execProgramUnitEnd_keeps (cells : List Byte) (s : State) : KeepsFrames s (execProgramUnitEnd cells s) := by
  unfold execProgramUnitEnd
  split
  next op _ =>
    split
    · exact .next (s.keeps_unitEnd op _ _)
    · exact .next (.refl s none)
  · exact .next (.refl s none)

theorem execProgramUnitTimeout_keeps (cells : List Byte) (s : State) :
    KeepsFrames s (execProgramUnitTimeout cells s) := by
  unfold execProgramUnitTimeout
  split
  next op _ =>
    refine .next (State.Keeps.trans ((s.sameFrames_advanceTo (pointAfterUs op.since Config.programLimit)).keeps none) ?_)
    refine State.Keeps.trans ?_ ((State.sameFrames_settleEvent _ _).keeps none)
    exact ((State.sameFrames_leaveBytes _ op _).keeps none).trans (State.keeps_unitFailed _ op)
  · exact .next (.refl s none)

theorem execEraseEnd_keeps (blank : Bool) (s : State) : KeepsFrames s (execEraseEnd blank s) := by
  unfold execEraseEnd
  split
  next e _ =>
    split
    · split
      · exact .same ((s.sameFrames_endErase e blank).trans (State.sameFrames_arbitrate _))
      · exact .next (.refl s none)
    · exact .next (.refl s none)
  · exact .next (.refl s none)

theorem execEraseTimeout_keeps (s : State) : KeepsFrames s (execEraseTimeout s) := by
  unfold execEraseTimeout
  split
  next e _ =>
    split
    · exact .same ((s.sameFrames_advanceTo _).trans ((State.sameFrames_endErase _ e false).trans
        (State.sameFrames_arbitrate _)))
    · exact .next (.refl s none)
  · exact .next (.refl s none)

theorem execArrayReadDone_keeps (s : State) : KeepsFrames s (execArrayReadDone s) := by
  unfold execArrayReadDone
  split
  · split
    · exact .next (.refl s none)
    · exact .next (s.keeps_answer _ false fun u => u.sameFrames_endRead.keeps none)
  · exact .next (.refl s none)

/-- Every command that answers a next state keeps memories, frames, pages and pins. -/
theorem exec_keeps (c : Instr) (s : State) : KeepsFrames s (exec c s) := by
  cases c
  case hardReset straps => exact .next (s.keeps_hardReset straps)
  case restartTakesEffect =>
    simp only [exec, execRestartTakesEffect]
    split
    · exact .next s.keeps_restart
    · exact .next (.refl s none)
  case characterCompletion i bits parityBit stopHigh => exact execCharacterCompletion_keeps i bits parityBit stopHigh s
  case idleTimerExpiry i => exact execIdleTimerExpiry_keeps i s
  case classification i => exact .next (s.keeps_classify i)
  case trigInRisingEdge => exact .same (.of_eq rfl rfl rfl fun _ => rfl)
  case trigInEdgeAccepted => exact execTrigInEdgeAccepted_keeps s
  case holdoffExpiry e =>
    simp only [exec, execHoldoffExpiry]
    split
    · exact .next (.refl s none)
    · exact .same (.of_eq rfl rfl rfl fun _ => rfl)
  case postTimerExpiry k => exact execPostTimerExpiry_keeps k s
  case hostByteReceived byte => exact execHostByteReceived_keeps byte s
  case interByteTimeout => exact execInterByteTimeout_keeps s
  case txFrameEnd => exact execTxFrameEnd_keeps s
  case programUnitEnd cells => exact execProgramUnitEnd_keeps cells s
  case programUnitTimeout cells => exact execProgramUnitTimeout_keeps cells s
  case eraseEnd blank => exact execEraseEnd_keeps blank s
  case eraseTimeout => exact execEraseTimeout_keeps s
  case arrayReadDone => exact execArrayReadDone_keeps s
  case scanFinish =>
    simp only [exec, execScanFinish]
    split
    · exact .same s.sameFrames_finishScan
    · exact .next (.refl s none)
  case unknownRequest tag payload =>
    simp only [exec, execUnknownRequest]
    split
    · exact .next (.refl s none)
    · exact .serve _ fun u => .refl u none
  case identify => exact .serve _ fun u => .refl u none
  case getStatus => exact .serve _ fun u => .refl u none
  case setTime tag time => exact .serve _ fun u => State.SameFrames.keeps (.of_eq rfl rfl rfl fun _ => rfl) none
  case setNoticeMask tag kinds lines => exact .serve _ (setNoticeMaskBody_keeps kinds lines)
  case clearFaults => exact .serve _ fun u => State.SameFrames.keeps (.of_eq rfl rfl rfl fun _ => rfl) none
  case restart tag => exact .next (s.keeps_request _ fun u => u.keeps_answer _ true fun v => .refl v none)
  case configureLine tag line cfg => exact .serve _ (configureLineBody_keeps line cfg)
  case startLine tag line pinHigh => exact .serve _ (startLineBody_keeps line pinHigh)
  case stopLine tag line => exact .serve _ (stopLineBody_keeps line)
  case getLineCounts tag line clear => exact .serve _ (getLineCountsBody_keeps line clear)
  case setPoolMark tag mark => exact .serve _ (setPoolMarkBody_keeps mark)
  case writeEntry tag entry body => exact .serve _ (writeEntryBody_keeps entry body)
  case readEntry tag entry => exact .serve _ (readEntryBody_keeps entry)
  case clearEntry tag entry => exact .serve _ (clearEntryBody_keeps entry)
  case forceTrigger tag entry => exact .serve _ (forceTriggerBody_keeps entry)
  case listIncidents => exact .serve _ fun u => .refl u none
  case closeIncident tag id => exact .serve _ (closeIncidentBody_keeps id)
  case cancelIncident tag id => exact .serve _ (cancelIncidentBody_keeps id)
  case listFrames tag line list present after max => exact .serve _ (listFramesBody_keeps line list present after max)
  case readFrame tag line seq => exact .serve _ (readFrameBody_keeps line seq)
  case takeFrames tag line count => exact .serve _ (takeFramesBody_keeps line count)
  case releaseFrames tag line seq => exact .serve _ (releaseFramesBody_keeps line seq)
  case getStoreStatus => exact .serve _ fun u => .refl u none
  case setStorePolicy tag policy => exact .serve _ fun u => (setStorePolicyBody_sameFrames policy u).keeps none
  case setProtection tag sector level => exact .serve _ fun u => (setProtectionBody_sameFrames sector level u).keeps none
  case eraseSector tag sector => exact .serve _ fun u => (eraseSectorBody_sameFrames sector u).keeps none
  case listRecords tag first filter max => exact .serve _ (listRecordsBody_keeps first filter max)
  case readRecord tag serial first => exact .next (s.keeps_serveRead _ _)
  case verifyRecord tag serial => exact .next (s.keeps_serveRead _ _)
  case discardRecord tag serial => exact .serve _ fun u => (discardRecordBody_sameFrames serial u).keeps none
  case startBit i lowAtMid =>
    simp only [exec, execStartBit]
    split
    · exact .same (s.sameFrames_modLine i (.refl _))
    · exact .next (.refl s none)
  case pinSampledHigh i =>
    simp only [exec, execPinSampledHigh]
    split
    · exact .same (s.sameFrames_modLine i (.refl _))
    · exact .next (.refl s none)

/-- And so does every step, the passing of time included. -/
theorem step_keeps (s : State) : KeepsFrames s (step s) := by
  unfold step
  split
  · exact .same (.of_eq rfl rfl rfl fun _ => rfl)
  next c rest _ =>
    intro t h
    have queued : s.SameFrames { s with pending := rest } := .of_eq rfl rfl rfl fun _ => rfl
    exact (queued.keeps none).trans (exec_keeps c _ t h)

/-! ### The statements -/

/-- Settles O4: what every step keeps, of the memories. -/
theorem everyStepKeepsMemoriesCanonical : Obligations.EveryStepKeepsMemoriesCanonical :=
  fun s t canonical h => (step_keeps s t h).1 canonical

/-- Settles O6: what every step keeps, of the frames. -/
theorem everyStepPlacesFramesOnce : Obligations.EveryStepPlacesFramesOnce :=
  fun s t placed h => t.framesPlaced_iff.mpr ((step_keeps s t h).2 (s.framesPlaced_iff.mp placed)).1

/-- Settles O7: what every step keeps, of the pages of frames placed once. -/
theorem everyStepConservesPages : Obligations.EveryStepConservesPages :=
  fun s t placed whole h => ((step_keeps s t h).2 (s.framesPlaced_iff.mp placed)).2.1 whole

/-- Settles O8: what every step keeps, of the pins of frames placed once. -/
theorem everyStepKeepsPinsAgreeing : Obligations.EveryStepKeepsPinsAgreeing := by
  intro s t placed agree h
  obtain ⟨-, -, pins⟩ := (step_keeps s t h).2 (s.framesPlaced_iff.mp placed)
  exact t.pinsAgree_iff.mpr (pins (s.pinsAgree_iff.mp agree))

end Sys2Proof.Machine
end

section
/-! PROOFS. TAKE_FRAMES (R34, R157). -/

namespace Sys2Proof.Machine

/-- The reply data of TAKE_FRAMES (R157), in the terms of the state before it. -/
def State.takeReply (s : State) (i : Fin 8) (n : Nat) : List Byte :=
  let moved := (s.capture.hist[i]).take n
  u8 i.val ++ u8 moved.length ++ moved.flatMap (fun id => encLE 2 (s.capture.seqOf id))
    ++ u8 ((s.capture.hist[i]).length - moved.length) ++ u8 ((s.capture.handed[i]).length + moved.length)
    ++ u8 s.lines[i].cfg.depth ++ [s.lines[i].state.code]

theorem takeFramesBody_ring {line count : Byte} {i : Fin 8} (hi : lineOf line = some i)
    (hc : countInRange count 32 = true) (s : State) (ring : s.lines[i].cfg.policy = .ring) :
    takeFramesBody line count s = (s, .bare .wrongState) := by
  unfold takeFramesBody
  simp only [hi, hc]
  exact if_pos ring

theorem takeFramesBody_feed {line count : Byte} {i : Fin 8} (hi : lineOf line = some i)
    (hc : countInRange count 32 = true) (s : State) (feed : s.lines[i].cfg.policy = .feed) :
    takeFramesBody line count s
      = ({ s with capture := s.capture.taken i count.toNat }, .ok (s.takeReply i count.toNat)) := by
  have hist : ((s.capture.taken i count.toNat).hist[i]).length
      = (s.capture.hist[i]).length - ((s.capture.hist[i]).take count.toNat).length := by
    simp only [Capture.taken, vector_get_set, if_true, List.length_drop, List.length_take]
    omega
  have handed : ((s.capture.taken i count.toNat).handed[i]).length
      = (s.capture.handed[i]).length + ((s.capture.hist[i]).take count.toNat).length := by
    simp only [Capture.taken, vector_get_set, if_true, List.length_append]
  unfold takeFramesBody
  simp only [hi, hc, feed, reduceCtorEq, if_false, Capture.take_eq_taken, hist, handed]
  rfl

/-- A body that changes capture memory only, and is answered with data. -/
theorem State.serve_captures (s : State) (row : Instr) (body : State → State × Answer) (c : Capture) (data : List Byte)
    (he : exec row s = .next (s.serve row body)) (h : s.Executing row)
    (hb : ∀ l k, body (s.relinked l k) = ({ s.relinked l k with capture := c }, .ok data)) :
    Completes row s fun t =>
      t = { s with capture := c, link := t.link, freeKey := t.freeKey } ∧ s.Answered t row .ok data := by
  rw [s.serve_in_hand row body h, s.answer_congr (reqOf row) false body (fun u => ({ u with capture := c }, .ok data)) hb]
    at he
  obtain ⟨u, ⟨same, -⟩, only, answered⟩ := s.answer_spec row (fun u => ({ u with capture := c }, .ok data)) fun _ => rfl
  rw [replyTo_ok] at answered
  refine ⟨_, he, ?_, answered⟩
  rw [only, same]

/-- Settles O36: the refusal on a RING line, and the frames that a FEED line hands out. -/
theorem takeFramesMovesTheOldest : Obligations.TakeFramesMovesTheOldest := by
  intro tag line count i s hi least most h
  have hc := countInRange_eq_true least most
  refine ⟨fun ring => ?_, fun feed => ?_⟩
  · exact s.serve_refuses _ _ _ rfl h fun l k => takeFramesBody_ring hi hc (s.relinked l k) ring
  obtain ⟨t, he, only, answered⟩ := s.serve_captures (.takeFrames tag line count) _ (s.capture.taken i count.toNat)
    (s.takeReply i count.toNat) rfl h fun l k => takeFramesBody_feed hi hc (s.relinked l k) feed
  have capture : t.capture = s.capture.taken i count.toNat := by rw [only]
  refine ⟨t, he, ?_⟩
  beta_reduce
  intro moved
  rw [capture]
  refine ⟨only, rfl, rfl, rfl, rfl, rfl, fun id f frame => ?_, answered⟩
  rw [Capture.taken_frame, frame]
  split <;> rfl

end Sys2Proof.Machine
end

section
/-! PROOFS. Reads and lists (R94, R116, R151 to R155, R162, R163). -/

namespace Sys2Proof.Machine

/-! ### Replies in the terms of statements (R190) -/

theorem Frame.descriptor_eq (f : Frame) : f.descriptor = f.described := rfl

theorem Capture.descriptor_eq (c : Capture) : c.descriptor = fun id => ((c.frame? id).map Frame.described).getD [] := rfl

theorem IndexEntry.flags_eq (e : IndexEntry) :
    e.flags = (if e.preTrimmed then 1 else 0) + (if e.retried then 2 else 0) + (if e.closedFull then 4 else 0) := by
  unfold IndexEntry.flags
  cases e.preTrimmed <;> cases e.retried <;> cases e.closedFull <;> rfl

theorem IndexEntry.bytes_eq : IndexEntry.bytes = IndexEntry.described := by
  funext e
  unfold IndexEntry.bytes IndexEntry.described
  rw [IndexEntry.flags_eq]
  rfl

theorem WorkItem.bytes_eq : WorkItem.bytes = WorkItem.described := by
  funext w
  cases w <;> rfl

theorem Sector.bytes_eq (scanning : Bool) (v : Sector) : v.bytes scanning = v.described scanning := by
  cases scanning <;> rfl

theorem opBytes_eq (op : Option ArrayOp) : opBytes op = ArrayOp.described op := by
  obtain _ | e | p := op
  · rfl
  · obtain ⟨sector, cause, spent, since⟩ := e
    cases since <;> rfl
  · rfl

theorem holderCode_eq (h : Option Holder) :
    holderCode h = if h = none then 0 else if h = some .commit then 1 else if h = some .hostItem then 2 else 3 := by
  obtain _ | h := h
  · rfl
  · cases h <;> rfl

theorem State.storeSummary_eq (s : State) : s.storeSummary = s.summary := by
  unfold State.storeSummary State.summary Store.stateCounts
  rw [holderCode_eq, opBytes_eq]
  by_cases scanning : s.store.state = .scanning
  · simp only [scanning, beq_self_eq_true, if_true]
    rfl
  · simp only [beq_false_of_ne scanning, Bool.false_eq_true, if_neg scanning, if_false, List.flatMap_cons, List.flatMap_nil,
      List.append_nil, List.append_assoc]
    rfl

theorem State.storeStatus_eq (s : State) :
    s.storeStatus = s.summary ++ s.store.work.flatMap WorkItem.described
      ++ allSectors.flatMap fun x => s.store.sectors[x].described (s.store.state == .scanning) := by
  unfold State.storeStatus
  simp only [State.storeSummary_eq, WorkItem.bytes_eq, Sector.bytes_eq]

/-! ### The frames from a sequence number on (R152) -/

/-- The search for a sequence number drops what stands before it, and finds none where nothing is left. -/
theorem Capture.fromSeq_eq (c : Capture) (seq : Half) (ids : List Nat) :
    let behind := ids.dropWhile fun id => c.seqOf id != seq
    c.fromSeq seq ids = if behind = [] then none else some behind := by
  induction ids with
  | nil => rfl
  | cons a rest ih =>
    unfold Capture.fromSeq
    by_cases found : c.seqOf a = seq
    · simp [found]
    · simpa [found] using ih

theorem Capture.fromSeq_head (c : Capture) (seq : Half) (ids : List Nat) :
    (c.fromSeq seq ids).bind List.head? = (ids.dropWhile fun id => c.seqOf id != seq).head? := by
  rw [c.fromSeq_eq seq ids]
  split
  next empty => rw [empty]; rfl
  next => rfl

/-! ### LIST_FRAMES (R153, R154) -/

theorem Capture.listOf_history (c : Capture) (i : Fin 8) : c.listOf i 0 = some (c.hist[i], c.handed[i]) := rfl
theorem Capture.listOf_handedOut (c : Capture) (i : Fin 8) : c.listOf i 1 = some (c.handed[i], c.hist[i]) := rfl

theorem Capture.listOf_none (c : Capture) (i : Fin 8) {list : Byte} (h : 2 ≤ list.toNat) : c.listOf i list = none := by
  unfold Capture.listOf
  split
  next => omega
  next => omega
  next => rfl

theorem Capture.listOf_some (c : Capture) (i : Fin 8) {list : Byte} (h : list.toNat < 2) :
    c.listOf i list = some (if list = 0 then c.hist[i] else c.handed[i], if list = 0 then c.handed[i] else c.hist[i]) := by
  obtain hl | hl : list.toNat = 0 ∨ list.toNat = 1 := by omega
  · obtain rfl : list = 0 := BitVec.eq_of_toNat_eq hl
    exact c.listOf_history i
  · obtain rfl : list = 1 := BitVec.eq_of_toNat_eq hl
    exact c.listOf_handedOut i

/-- A line in range is given by its number. -/
theorem u8_of_lineOf {line : Byte} {i : Fin 8} (hi : lineOf line = some i) : u8 i.val = [line] := by
  unfold lineOf at hi
  split at hi
  next h =>
    obtain rfl := Option.some.inj hi
    exact congrArg (· :: []) (BitVec.eq_of_toNat_eq (by simp))
  next => exact (Option.some_ne_none i hi.symm).elim

theorem listFramesBody_outOfRange {line list max : Byte} (present : Byte) (after : Half) (s : State)
    (h : 8 ≤ line.toNat ∨ 2 ≤ list.toNat ∨ max.toNat = 0 ∨ 32 < max.toNat) :
    listFramesBody line list present after max s = (s, .bare .badArgument) := by
  unfold listFramesBody
  split
  next => rfl
  next i hi =>
    split
    next => rfl
    next named other lists =>
      have line : ¬ 8 ≤ line.toNat := fun big => Option.some_ne_none i (hi.symm.trans (lineOf_eq_none big))
      have list : ¬ 2 ≤ list.toNat := fun big =>
        Option.some_ne_none _ (lists.symm.trans (s.capture.listOf_none i big))
      obtain h | h | h := h
      · exact absurd h line
      · exact absurd h list
      · rw [countInRange_eq_false h]
        rfl

theorem State.framesReply_eq (s : State) {line : Byte} {i : Fin 8} (hi : lineOf line = some i) (list present : Byte)
    (named other : List Nat) (after : Half) (max : Nat) :
    let l := s.lines[i]
    let behind := if presenceOf present = true then named.dropWhile fun id => s.capture.seqOf id != after else []
    let shown := if behind = [] then named else behind.tail
    s.framesReply i list named other (if presenceOf present then some after else none) max
      = [line, list, l.state.code, l.cfg.policy.code] ++ u8 l.cfg.depth ++ u8 named.length ++ u8 other.length
        ++ [boolByte (behind != [])] ++ u8 (min max shown.length) ++ [boolByte (decide (max < shown.length))]
        ++ (shown.take max).flatMap fun id => ((s.capture.frame? id).map Frame.described).getD [] := by
  intro l behind shown
  have found : ((if presenceOf present then some after else none).bind fun q => s.capture.fromSeq q named)
      = if behind = [] then none else some behind := by
    by_cases there : presenceOf present = true
    · simp only [there, if_true, Option.bind_some, Capture.fromSeq_eq, behind]
    · simp only [there, behind]
      rfl
  have flag : ((if behind = [] then none else some behind).isSome : Bool) = (behind != []) := by
    by_cases empty : behind = []
    · simp [empty]
    · simp [empty]
  have rest : ((if behind = [] then none else some behind).map List.tail).getD named = shown := by
    by_cases empty : behind = []
    · simp [empty, shown]
    · simp [empty, shown]
  unfold State.framesReply
  simp only [found, flag, rest, u8_of_lineOf hi, List.length_take, Capture.descriptor_eq]
  rfl

theorem listFramesBody_listed {line list max : Byte} {i : Fin 8} (hi : lineOf line = some i) (present : Byte)
    (after : Half) (s : State) (hl : list.toNat < 2) (least : 1 ≤ max.toNat) (most : max.toNat ≤ 32) :
    listFramesBody line list present after max s
      = (s, .ok (s.framesReply i list (if list = 0 then s.capture.hist[i] else s.capture.handed[i])
          (if list = 0 then s.capture.handed[i] else s.capture.hist[i])
          (if presenceOf present then some after else none) max.toNat)) := by
  unfold listFramesBody
  simp only [hi, s.capture.listOf_some i hl, countInRange_eq_true least most, if_true]

/-- A read: its body changes nothing and answers with data of capture memory, lines, store, incidents and records. -/
theorem State.serve_reads (s : State) (row : Instr) (body : State → State × Answer) (data : List Byte)
    (he : exec row s = .next (s.serve row body)) (h : s.Executing row)
    (hb : ∀ l k, body (s.relinked l k) = (s.relinked l k, .ok data)) :
    Completes row s fun t => s.OnlyLink t ∧ s.Answered t row .ok data :=
  ⟨_, he, s.serve_unchanged row body (.ok data) h hb⟩

theorem listFrames_reads (tag line list present : Byte) (after : Half) (max : Byte) (s : State)
    (h : s.Executing (.listFrames tag line list present after max)) (i : Fin 8) (hi : lineOf line = some i)
    (hl : list.toNat < 2) (least : 1 ≤ max.toNat) (most : max.toNat ≤ 32) :
    Completes (.listFrames tag line list present after max) s fun t =>
      let l := s.lines[i]
      let named := if list = 0 then s.capture.hist[i] else s.capture.handed[i]
      let other := if list = 0 then s.capture.handed[i] else s.capture.hist[i]
      let behind := if presenceOf present = true then named.dropWhile fun id => s.capture.seqOf id != after else []
      let shown := if behind = [] then named else behind.tail
      s.OnlyLink t ∧ s.Answered t (.listFrames tag line list present after max) .ok
        ([line, list, l.state.code, l.cfg.policy.code] ++ u8 l.cfg.depth ++ u8 named.length ++ u8 other.length
          ++ [boolByte (behind != [])] ++ u8 (min max.toNat shown.length)
          ++ [boolByte (decide (max.toNat < shown.length))]
          ++ (shown.take max.toNat).flatMap fun id => ((s.capture.frame? id).map Frame.described).getD []) := by
  refine s.serve_reads _ _ _ rfl h fun u k => ?_
  rw [listFramesBody_listed hi present after (s.relinked u k) hl least most, State.framesReply_eq _ hi]
  rfl

/-! ### READ_FRAME (R155) -/

theorem readFrameBody_noLine {line : Byte} (h : 8 ≤ line.toNat) (seq : Half) (s : State) :
    readFrameBody line seq s = (s, .bare .badArgument) := by simp [readFrameBody, lineOf_eq_none h]

/-- What READ_FRAME answers of the frame found, if any. -/
def Capture.frameAnswer (c : Capture) (found : Option Nat) : Answer :=
  match found with
  | none => .bare .notFound
  | some id => .ok (c.descriptor id ++ ((c.frame? id).map c.frameBytes).getD [])

theorem readFrameBody_reads {line : Byte} {i : Fin 8} (hi : lineOf line = some i) (seq : Half) (s : State) :
    readFrameBody line seq s = (s, s.capture.frameAnswer
      ((s.capture.handed[i] ++ s.capture.hist[i]).dropWhile fun id => s.capture.seqOf id != seq).head?) := by
  unfold readFrameBody Capture.frameAnswer
  simp only [hi, Capture.fromSeq_head]
  split
  next none => rw [none]
  next some => rw [some]

theorem readFrame_reads (tag line : Byte) (seq : Half) (s : State) (h : s.Executing (.readFrame tag line seq)) (i : Fin 8)
    (hi : lineOf line = some i) : Completes (.readFrame tag line seq) s fun t =>
      let from_ := (s.capture.handed[i] ++ s.capture.hist[i]).dropWhile fun id => s.capture.seqOf id != seq
      s.OnlyLink t ∧ (from_ = [] → s.Answered t (.readFrame tag line seq) .notFound [])
        ∧ ∀ id, from_.head? = some id → ∀ f, s.capture.frame? id = some f →
            s.Answered t (.readFrame tag line seq) .ok (f.described ++ s.capture.frameBytes f) := by
  obtain ⟨only, answered⟩ := s.serve_unchanged (.readFrame tag line seq) (readFrameBody line seq)
    (s.capture.frameAnswer
      ((s.capture.handed[i] ++ s.capture.hist[i]).dropWhile fun id => s.capture.seqOf id != seq).head?) h fun l k =>
    readFrameBody_reads hi seq (s.relinked l k)
  refine ⟨_, rfl, only, fun none => ?_, fun id first f frame => ?_⟩
  · simp only [none, List.head?_nil, Capture.frameAnswer, replyTo_bare] at answered
    exact answered
  · simp only [first, Capture.frameAnswer, Capture.descriptor_eq, frame, Option.map_some,
      Option.getD_some, replyTo_ok] at answered
    exact answered

/-! ### LIST_RECORDS (R163) -/

theorem listRecordsBody_outOfRange {filter max : Byte} (first : Word) (s : State)
    (h : (64 ≤ filter.toNat ∧ filter ≠ 0xFF#8) ∨ max.toNat = 0 ∨ 40 < max.toNat) :
    listRecordsBody first filter max s = (s, .bare .badArgument) :=
  if_pos (h.imp And.symm countInRange_eq_false)

theorem listRecordsBody_listed {filter max : Byte} (first : Word) (s : State)
    (h : ¬ ((64 ≤ filter.toNat ∧ filter ≠ 0xFF#8) ∨ max.toNat = 0 ∨ 40 < max.toNat))
    (ready : s.store.state ≠ .scanning) :
    let es := s.records.index.filter fun e =>
      decide (first ≤ e.serial) && (filter == 0xFF#8 || filter.toNat == e.sector.val)
    listRecordsBody first filter max s = (s, .ok (u16 s.records.index.length ++ u8 (min max.toNat es.length)
      ++ [boolByte (decide (max.toNat < es.length))] ++ (es.take max.toNat).flatMap IndexEntry.described)) := by
  obtain ⟨sector, count⟩ := not_or.mp h
  have inRange : countInRange max 40 = true := countInRange_eq_true (by omega) (by omega)
  unfold listRecordsBody
  rw [if_neg (by simp only [inRange, Bool.true_eq_false, or_false]; exact fun out => sector out.symm), if_neg ready]
  dsimp only
  rw [List.length_take, IndexEntry.bytes_eq]
  rfl

theorem listRecords_reads (tag : Byte) (first : Word) (filter max : Byte) (s : State)
    (h : s.Executing (.listRecords tag first filter max)) :
    Completes (.listRecords tag first filter max) s fun t => s.OnlyLink t ∧
      if (64 ≤ filter.toNat ∧ filter ≠ 0xFF#8) ∨ max.toNat = 0 ∨ 40 < max.toNat then
        s.Answered t (.listRecords tag first filter max) .badArgument []
      else if s.store.state = .scanning then s.Answered t (.listRecords tag first filter max) .notReady []
      else
        let es := s.records.index.filter fun e =>
          decide (first ≤ e.serial) && (filter == 0xFF#8 || filter.toNat == e.sector.val)
        s.Answered t (.listRecords tag first filter max) .ok
          (u16 s.records.index.length ++ u8 (min max.toNat es.length)
            ++ [boolByte (decide (max.toNat < es.length))] ++ (es.take max.toNat).flatMap IndexEntry.described) := by
  split
  next out => exact s.serve_refuses _ _ _ rfl h fun l k => listRecordsBody_outOfRange first (s.relinked l k) out
  next inRange =>
    obtain ⟨sector, count⟩ := not_or.mp inRange
    split
    next scanning =>
      refine s.serve_refuses _ _ _ rfl h fun l k => ?_
      refine listRecordsBody_scanning first ?_ (by omega) (by omega) (s.relinked l k) scanning
      exact (Nat.lt_or_ge filter.toNat 64).imp_right fun big => not_not.mp fun other => sector ⟨big, other⟩
    next ready =>
      exact s.serve_reads _ _ _ rfl h fun l k => listRecordsBody_listed first (s.relinked l k) inRange ready

/-- Settles O35: the refusals, and what each read and list answers. -/
theorem readsAndListsChangeNothing : Obligations.ReadsAndListsChangeNothing := by
  refine ⟨fun tag line list present after max s h => ⟨fun out => ?_, fun i hi hl least most => ?_⟩,
    fun tag line seq s h => ⟨fun out => ?_, fun i hi => readFrame_reads tag line seq s h i hi⟩,
    fun tag s h => ?_, fun tag s h => ?_, fun tag first filter max s h => listRecords_reads tag first filter max s h⟩
  · exact s.serve_refuses _ _ _ rfl h fun l k => listFramesBody_outOfRange present after (s.relinked l k) out
  · exact listFrames_reads tag line list present after max s h i hi hl least most
  · exact s.serve_refuses _ _ _ rfl h fun l k => readFrameBody_noLine out seq (s.relinked l k)
  · exact s.serve_reads _ _ _ rfl h fun l k => congrArg (fun data => (s.relinked l k, Answer.ok data)) s.storeStatus_eq
  · exact s.serve_reads _ _ _ rfl h fun l k => rfl

end Sys2Proof.Machine
end

section
/-! PROOFS. Claims of classified frames and what their event announces (R29 to R33, R56, R182). -/

namespace Sys2Proof.Machine

/-! ### Notices that join the queue while the transmitter sends (R182) -/

/-- Notices have joined the queue at a time of day, behind those that wait; nothing else of the link but what a notice
may change has changed. -/
def Link.Appends (a b : Link) (tod : Stamp) (ns : List Notice) : Prop :=
  b.tx = a.tx ∧ Link.keeps a b
    ∧ ∃ more, b.notices = a.notices ++ more ∧ more.map (fun q => q.notice) = ns ∧ ∀ q ∈ more, q.time = tod

theorem Link.appends_refl (a : Link) (tod : Stamp) : a.Appends a tod [] :=
  ⟨rfl, Link.keeps_refl a, [], (List.append_nil _).symm, rfl, fun _ h => (List.not_mem_nil h).elim⟩

theorem Link.Appends.trans {a b c : Link} {tod : Stamp} {ns ms : List Notice} (h : a.Appends b tod ns)
    (g : b.Appends c tod ms) : a.Appends c tod (ns ++ ms) := by
  obtain ⟨tx, keeps, more, notices, rfl, times⟩ := h
  obtain ⟨tx', keeps', more', notices', rfl, times'⟩ := g
  refine ⟨tx'.trans tx, Link.keeps_trans keeps keeps', more ++ more', ?_, List.map_append, fun q hq => ?_⟩
  · rw [notices', notices, List.append_assoc]
  · exact (List.mem_append.mp hq).elim (times q) (times' q)

theorem Link.Appends.busy {a b : Link} {tod : Stamp} {ns : List Notice} (h : a.Appends b tod ns) (busy : a.tx ≠ none) :
    b.tx ≠ none := h.1 ▸ busy

theorem Link.notify_appends {a : Link} (tod : Stamp) {n : Notice} (busy : a.tx ≠ none) (passes : a.passes n = true)
    (room : a.notices.length < 16) : a.Appends (a.notify tod n) tod [n] := by
  refine ⟨a.notify_busy tod n busy, a.notify_keeps tod n, [⟨a.number, tod, n⟩], ?_, rfl, fun q hq => ?_⟩
  · rw [a.notify_joins tod n busy passes room]
    rfl
  · rw [List.mem_singleton.mp hq]

/-- Whatever masks and queue let through (R183, R196). -/
theorem Link.notify_appends_any {a : Link} (tod : Stamp) (n : Notice) (busy : a.tx ≠ none) :
    ∃ ns, a.Appends (a.notify tod n) tod ns := by
  by_cases passes : a.passes n = true
  · by_cases room : a.notices.length < 16
    · exact ⟨[n], Link.notify_appends tod busy passes room⟩
    · refine ⟨[], a.notify_busy tod n busy, a.notify_keeps tod n, [], ?_, rfl, fun _ h => (List.not_mem_nil h).elim⟩
      have lost : a.notify tod n = { a with lost := a.lost.add tod n } := by
        unfold Link.notify
        rw [if_pos passes, if_neg (show ¬ a.notices.length < Config.noticeCapacity from room)]
      rw [lost, List.append_nil]
  · rw [a.notify_masked tod n (Bool.not_eq_true _ ▸ passes)]
    exact ⟨[], a.appends_refl tod⟩

theorem State.notifyAll_appends (ns : List Notice) (s : State) (busy : s.link.tx ≠ none) :
    ∃ ms, s.link.Appends (s.notifyAll ns).link s.time.tod ms := by
  induction ns generalizing s with
  | nil => exact ⟨[], s.link.appends_refl _⟩
  | cons n rest ih =>
    obtain ⟨first, h⟩ := Link.notify_appends_any s.time.tod n busy
    obtain ⟨more, g⟩ := ih (s.notify n) (h.busy busy)
    exact ⟨first ++ more, h.trans g⟩

theorem State.joined_of_appends {s t : State} {ns : List Notice} (h : s.link.Appends t.link s.time.tod ns)
    (time : t.time = s.time) : s.joined t = ns := by
  obtain ⟨-, -, more, notices, rfl, times⟩ := h
  unfold State.joined
  rw [notices, List.drop_left, List.filter_eq_self.mpr fun q hq => beq_iff_eq.mpr ((times q hq).trans (time ▸ rfl))]

theorem State.conclude_appends (old s : State) (busy : s.link.tx ≠ none) :
    ∃ ns, s.link.Appends (State.conclude old s).link s.time.tod ns := by
  have same : (State.evalPressure old s).evalEvtOut.link = s.link := by
    rw [State.evalPressure_eq, State.setPressure_only]
    rfl
  have time : (State.evalPressure old s).evalEvtOut.time = s.time := by
    rw [State.evalPressure_eq, State.setPressure_only]
    rfl
  have joins := State.notifyAll_appends (lineNotices old (State.evalPressure old s)
    ++ Machine.pressureNotices old (State.evalPressure old s)) (State.evalPressure old s).evalEvtOut (same.symm ▸ busy)
  rwa [same, time] at joins

/-! ### What a claim leaves alone -/

/-- A claim leaves match unit, incident unit, store and clocks, and queues notices at most. -/
structure State.Claims (s t : State) : Prop where
  matcher : t.matcher = s.matcher
  inc : t.inc = s.inc
  store : t.store = s.store
  time : t.time = s.time
  joins : s.link.tx ≠ none → ∃ ns, s.link.Appends t.link s.time.tod ns

/-- A claim without a notice. -/
theorem State.Claims.of_eq {s t : State} (matcher : t.matcher = s.matcher) (inc : t.inc = s.inc)
    (store : t.store = s.store) (time : t.time = s.time) (link : t.link = s.link) : s.Claims t :=
  ⟨matcher, inc, store, time, fun _ => ⟨[], link.symm ▸ s.link.appends_refl _⟩⟩

theorem State.Claims.refl (s : State) : s.Claims s := .of_eq rfl rfl rfl rfl rfl

theorem State.Claims.trans {s t u : State} (h : s.Claims t) (g : t.Claims u) : s.Claims u := by
  refine ⟨g.matcher.trans h.matcher, g.inc.trans h.inc, g.store.trans h.store, g.time.trans h.time, fun busy => ?_⟩
  obtain ⟨ns, first⟩ := h.joins busy
  obtain ⟨ms, next⟩ := g.joins (first.busy busy)
  rw [h.time] at next
  exact ⟨ns ++ ms, first.trans next⟩

theorem State.claims_modLine (s : State) (i : Fin 8) (f : Line → Line) : s.Claims (s.modLine i f) :=
  .of_eq rfl rfl rfl rfl rfl

theorem State.claims_notify (s : State) (n : Notice) : s.Claims (s.notify n) :=
  ⟨rfl, rfl, rfl, rfl, Link.notify_appends_any s.time.tod n⟩

theorem State.claims_dropClaim (s : State) (i : Fin 8) (id : Nat) : s.Claims (s.dropClaim i id) :=
  .of_eq rfl rfl rfl rfl rfl

theorem State.claims_append (s : State) (i : Fin 8) (id : Nat) : s.Claims (s.append i id) := .of_eq rfl rfl rfl rfl rfl

theorem State.claims_keepRing (s : State) (i : Fin 8) (id : Nat) : s.Claims (s.keepRing i id) := by
  unfold State.keepRing
  split
  · split <;> exact .of_eq rfl rfl rfl rfl rfl
  · exact s.claims_append i id

theorem State.claims_keepFeed (s : State) (i : Fin 8) (id : Nat) : s.Claims (s.keepFeed i id) := by
  unfold State.keepFeed
  split
  · have appended := (s.claims_append i id).trans
      (State.claims_modLine _ i fun l => l.suspendAt (s.capture.total i + 1))
    dsimp only
    split
    · exact appended.trans (State.claims_notify _ _)
    · exact appended
  · split
    · split
      · exact s.claims_dropClaim i id
      · exact .of_eq rfl rfl rfl rfl rfl
    · exact .refl s

theorem State.claims_keepClaim (s : State) (i : Fin 8) (id : Nat) : s.Claims (s.keepClaim i id) := by
  unfold State.keepClaim
  split
  · exact s.claims_keepRing i id
  · exact s.claims_keepFeed i id

/-! ### Keep claims (R30 to R33) -/

/-- A frame has been kept: it stands in its line's history and is counted, and frames that are pinned stay so. -/
structure State.Kept (s t : State) (i : Fin 8) (id : Nat) (g : Frame) : Prop where
  frame : t.capture.frame? id = some { g with place := .inHistory }
  listed : id ∈ t.capture.hist[i]
  counters : t.lines[i].counters = { s.lines[i].counters with kept := s.lines[i].counters.kept + 1 }
  pinned : ∀ x, x ≠ id → ∀ f, s.capture.frame? x = some f → f.pins ≠ 0 →
    ∃ h, t.capture.frame? x = some h ∧ h.pins = f.pins

theorem State.append_kept (s : State) (i : Fin 8) {id : Nat} {g : Frame} (frame : s.capture.frame? id = some g) :
    s.Kept (s.append i id) i id g := by
  let c := { s.capture with hist := s.capture.hist.set i (s.capture.hist[i] ++ [id]) }
  refine ⟨?_, ?_, ?_, fun x other f found _ => ⟨f, ?_, rfl⟩⟩
  · exact (c.modFrame_frame_same id _).trans (congrArg _ frame)
  · have hist : (s.append i id).capture.hist = c.hist := by
      unfold State.append
      rw [State.modLine_capture, Capture.modFrame_only]
    rw [hist]
    simp [c]
  · unfold State.append
    rw [State.modLine_same]
  · exact (c.modFrame_frame_other id x other _).trans found

theorem State.keepRing_kept (s : State) (i : Fin 8) {id : Nat} {g : Frame} (frame : s.capture.frame? id = some g)
    (unlisted : id ∉ s.capture.hist[i]) : s.Kept (s.keepRing i id) i id g := by
  unfold State.keepRing
  split
  next oldest rest hist =>
    split
    · let c : Capture := { s.capture with hist := s.capture.hist.set i rest }
      let d : State := { s with capture := c.leave oldest }
      have stays : id ≠ oldest := fun e => unlisted (by rw [hist, e]; exact List.mem_cons_self)
      have kept : d.Kept (d.append i id) i id g := d.append_kept i ((c.leave_frame_other oldest id stays).trans frame)
      refine ⟨kept.frame, kept.listed, kept.counters, fun x other f found pinned => ?_⟩
      by_cases displaced : x = oldest
      · rw [displaced] at other found ⊢
        have left : d.capture.frame? oldest = some { f with place := .detached } := by
          refine (c.leave_frame_same oldest).trans ?_
          rw [show c.frame? oldest = some f from found, Option.bind_some, Frame.left, if_neg pinned]
        exact kept.pinned oldest other { f with place := .detached } left pinned
      · exact kept.pinned x other f ((c.leave_frame_other oldest x displaced).trans found) pinned
    · exact s.append_kept i frame
  · exact s.append_kept i frame

theorem Line.suspendAt_counters (l : Line) (n : Nat) : (l.suspendAt n).counters = l.counters := by
  unfold Line.suspendAt
  split <;> rfl

theorem State.keepFeed_kept (s : State) (i : Fin 8) {id : Nat} {g : Frame} (frame : s.capture.frame? id = some g)
    (below : s.capture.total i < s.lines[i].cfg.depth) : s.Kept (s.keepFeed i id) i id g := by
  have kept := s.append_kept i frame
  have moved : s.Kept ((s.append i id).modLine i fun l => l.suspendAt (s.capture.total i + 1)) i id g := by
    refine ⟨kept.frame, kept.listed, ?_, kept.pinned⟩
    rw [State.modLine_same, Line.suspendAt_counters]
    exact kept.counters
  unfold State.keepFeed
  rw [if_pos below]
  dsimp only
  split
  · exact ⟨moved.frame, moved.listed, moved.counters, moved.pinned⟩
  · exact moved

/-- At its limit a FEED line takes no frame: a pinned one is DETACHED, any other freed (R33). -/
theorem State.keepFeed_full (s : State) (i : Fin 8) {id : Nat} {g : Frame} (frame : s.capture.frame? id = some g)
    (full : s.lines[i].cfg.depth ≤ s.capture.total i) :
    s.keepFeed i id = if g.pins = 0 then s.dropClaim i id else { s with capture := s.capture.leave id } := by
  unfold State.keepFeed
  rw [if_neg (Nat.not_lt.mpr full)]
  simp only [frame]

/-- A FEED line's limit is reached (R33). -/
def State.atLimit (s : State) (i : Fin 8) : Prop := s.lines[i].cfg.policy = .feed ∧ s.lines[i].cfg.depth ≤ s.capture.total i

theorem State.keepClaim_kept (s : State) (i : Fin 8) {id : Nat} {g : Frame} (frame : s.capture.frame? id = some g)
    (unlisted : id ∉ s.capture.hist[i]) (room : ¬ s.atLimit i) : s.Kept (s.keepClaim i id) i id g := by
  unfold State.keepClaim
  split
  · exact s.keepRing_kept i frame unlisted
  next feed => exact s.keepFeed_kept i frame (Nat.not_le.mp fun full => room ⟨feed, full⟩)

theorem State.keepClaim_atLimit (s : State) (i : Fin 8) {id : Nat} {g : Frame} (frame : s.capture.frame? id = some g)
    (limit : s.atLimit i) :
    s.keepClaim i id = if g.pins = 0 then s.dropClaim i id else { s with capture := s.capture.leave id } := by
  obtain ⟨feed, full⟩ := limit
  unfold State.keepClaim
  rw [feed]
  exact s.keepFeed_full i frame full

/-! ### The end of a classification (R56) -/

theorem Line.finishStop_counters (l : Line) : l.finishStop.counters = l.counters := by
  unfold Line.finishStop
  split <;> rfl

/-- The state after a classification, from that after its claim. -/
def State.claimed (s b : State) (i : Fin 8) : State := State.conclude s (b.modLine i Line.finishStop)

section
variable (s b : State) (i : Fin 8)

theorem State.claimed_frame (id : Nat) : (s.claimed b i).capture.frame? id = b.capture.frame? id :=
  State.conclude_frame _ _ id

theorem State.claimed_hist : (s.claimed b i).capture.hist = b.capture.hist := State.conclude_hist _ _

theorem State.claimed_inc : (s.claimed b i).inc = b.inc.evaluated := State.conclude_inc _ _

theorem State.claimed_matcher : (s.claimed b i).matcher = b.matcher := State.conclude_matcher _ _

theorem State.claimed_counters : (s.claimed b i).lines[i].counters = b.lines[i].counters := by
  unfold State.claimed
  rw [State.conclude_line, Line.pressed_counters, State.modLine_same, Line.finishStop_counters]

end

theorem State.settleEvent_busy {s x : State} (busy : s.arrayIdle = false) (store : x.store = s.store) :
    State.settleEvent s x = State.conclude s x := by
  refine State.arbitrate_nothing (.inl ?_)
  unfold State.arrayIdle at busy ⊢
  rwa [State.conclude_store, store]

/-- CLASSIFICATION of a frame while the array is not idle. -/
theorem exec_classification {s b : State} {i : Fin 8} {id : Nat} {rest : List Nat} {f : Frame}
    (awaiting : s.lines[i].awaiting = id :: rest) (frame : s.capture.frame? id = some f) (busy : s.arrayIdle = false)
    (run : (s.modLine i fun l => { l with awaiting := rest }).classifyFrame i id f = b) (store : b.store = s.store) :
    exec (.classification i) s = .next (s.claimed b i) := by
  have event : s.classify i = State.settleEvent s (b.modLine i Line.finishStop) := by
    unfold State.classify
    simp only [awaiting, frame, run]
  exact congrArg Host.Outcome.next (event.trans (State.settleEvent_busy busy store))

/-- The notices of a classification: those before its claim, then others. -/
theorem State.joined_claimed {s a b : State} {ns : List Notice} (i : Fin 8) (busy : s.link.tx ≠ none)
    (first : s.link.Appends a.link s.time.tod ns) (time : a.time = s.time) (claims : a.Claims b) :
    ns <+: s.joined (s.claimed b i) := by
  obtain ⟨ms, claim⟩ := claims.joins (first.busy busy)
  rw [time] at claim
  have before := first.trans claim
  obtain ⟨ls, last⟩ := State.conclude_appends s (b.modLine i Line.finishStop) (before.busy busy)
  rw [show (b.modLine i Line.finishStop).time = s.time from claims.time.trans time] at last
  have joined : s.joined (s.claimed b i) = ns ++ ms ++ ls :=
    State.joined_of_appends (before.trans last) ((State.conclude_time _ _).trans (claims.time.trans time))
  rw [joined, List.append_assoc]
  exact List.prefix_append _ _

end Sys2Proof.Machine
end

section
/-! PROOFS. CLASSIFICATION of a frame that joins a COLLECTING incident (R60, R81, R82). -/

namespace Sys2Proof.Machine

/-! ### Frames by start time, line and length (R76, R77) -/

/-- What the order and the cost of a frame depend on. -/
def Frame.key (f : Frame) : Stamp × Fin 8 × Nat := (f.start, f.line, f.length)

/-- Two capture memories hold the same frames, as far as order and cost go. -/
def Capture.SameKeys (c d : Capture) : Prop := ∀ id, (d.frame? id).map Frame.key = (c.frame? id).map Frame.key

theorem Capture.isBefore_eq (c : Capture) (b a : Nat) :
    c.isBefore b a = ((c.frame? b).map Frame.key).any fun p => ((c.frame? a).map Frame.key).any fun q =>
      decide (p.1 < q.1) || (p.1 == q.1 && decide (p.2.1 < q.2.1)) := by
  unfold Capture.isBefore
  cases c.frame? b with
  | none => rfl
  | some g => cases c.frame? a <;> rfl

theorem Capture.cost_eq (c : Capture) (id : Nat) :
    c.cost id = 24 + ((((c.frame? id).map Frame.key).map fun p => p.2.2).getD 0 + 3) / 4 * 4 := by
  unfold Capture.cost
  rw [Option.map_map]
  rfl

section
variable {c d : Capture} (h : c.SameKeys d)

include h in
theorem Capture.SameKeys.isBefore (b a : Nat) : d.isBefore b a = c.isBefore b a := by
  rw [Capture.isBefore_eq, Capture.isBefore_eq, h, h]

include h in
theorem Capture.SameKeys.cost (id : Nat) : d.cost id = c.cost id := by rw [Capture.cost_eq, Capture.cost_eq, h]

include h in
theorem Capture.SameKeys.place (id : Nat) (l : List Nat) : d.place id l = c.place id l := by
  induction l with
  | nil => rfl
  | cons x rest ih =>
    unfold Capture.place
    rw [h.isBefore, ih]

end

/-! ### The capture memory after the evaluation of a frame (R54, R56) -/

/-- Capture memory with the match set of the frame in a slot. -/
def Capture.matchedBy (c : Capture) (id : Nat) (v : Half) : Capture := c.modFrame id fun f => { f with matchSet := v }

section
variable (c : Capture) (id : Nat) (v : Half)

theorem Capture.matchedBy_frame {f : Frame} (frame : c.frame? id = some f) :
    (c.matchedBy id v).frame? id = some { f with matchSet := v } :=
  (c.modFrame_frame_same id _).trans (congrArg _ frame)

theorem Capture.matchedBy_other (j : Nat) (h : j ≠ id) : (c.matchedBy id v).frame? j = c.frame? j :=
  c.modFrame_frame_other id j h _

theorem Capture.matchedBy_hist : (c.matchedBy id v).hist = c.hist := by
  unfold Capture.matchedBy
  rw [Capture.modFrame_only]

theorem Capture.matchedBy_handed : (c.matchedBy id v).handed = c.handed := by
  unfold Capture.matchedBy
  rw [Capture.modFrame_only]

theorem Capture.matchedBy_keys : c.SameKeys (c.matchedBy id v) := by
  intro j
  by_cases here : j = id
  · subst here
    rw [Capture.matchedBy, Capture.modFrame_frame_same, Option.map_map]
    rfl
  · rw [c.matchedBy_other id v j here]

end

theorem Capture.pin_hist (c : Capture) (id : Nat) : (c.pin id).hist = c.hist := by
  unfold Capture.pin
  rw [Capture.modFrame_only]

theorem Capture.pin_handed (c : Capture) (id : Nat) : (c.pin id).handed = c.handed := by
  unfold Capture.pin
  rw [Capture.modFrame_only]

/-- The state once the frame of a slot has been evaluated. -/
def State.evaluated (s : State) (m : Matcher) (id : Nat) (v : Half) : State :=
  { s with matcher := m, capture := s.capture.matchedBy id v }

/-- A classification by what the evaluation leaves and matches. -/
theorem State.classifyFrame_of {s : State} {i : Fin 8} {id : Nat} {f : Frame} {m : Matcher} {v : Half}
    (matched : s.matcher.evaluate (fun m e => m.matchesFrame e f (s.capture.frameBytes f) s.time.tod) f.start = (m, v)) :
    let q := (s.evaluated m id v).fire (frameRequest i id f) (m.firing v)
    s.classifyFrame i id f = if q.1.drops i f v q.2 then q.1.dropClaim i id else (q.1.arrive id i).keepClaim i id := by
  unfold State.classifyFrame
  simp only [matched]
  rfl

/-- A frame that no entry matches and that its line keeps arrives, and is kept (R59, R60). -/
theorem State.classifyFrame_kept {s : State} {i : Fin 8} {id : Nat} {f : Frame}
    (disabled : ∀ e : Fin 16, s.matcher.entries[e].body.enabled ≠ 1)
    (keep : isBad f.check f.flags = false ∨ s.lines[i].cfg.keepBad = true) :
    s.classifyFrame i id f = ((s.evaluated s.matcher id 0).arrive id i).keepClaim i id := by
  have unmatched : s.matcher.evaluate (fun m e => m.matchesFrame e f (s.capture.frameBytes f) s.time.tod) f.start
      = (s.matcher, 0) := s.matcher.evaluate_none _ _ fun e => s.matcher.matchesFrame_disabled (disabled e) _ _ _
  have kept : (s.evaluated s.matcher id 0).drops i f 0 false = false := by
    rw [State.drops_unmatched]
    obtain good | keepBad := keep
    · rw [good, Bool.false_and]
    · rw [show (s.evaluated s.matcher id 0).lines[i].cfg.keepBad = true from keepBad, Bool.not_true, Bool.and_false]
  rw [State.classifyFrame_of unmatched, Matcher.firing_none]
  exact if_neg (Bool.eq_false_iff.mp kept)

/-! ### A kept frame is offered (R81, R82, R84) -/

/-- An incident closed for a reason (R84). -/
def Incident.closedBy (n : Incident) (r : CloseReason) : Incident :=
  { n with state := .queued, closeReason := some r, postTimer := none }

/-- The notice of the closing. -/
def Incident.closedNotice (n : Incident) (r : CloseReason) : Notice :=
  .incidentClosed n.id r n.frames.length n.budget n.postFrames n.preTrimmed n.retried

theorem State.closeIncident_eq {s : State} {k : Fin 4} {n : Incident} (here : s.inc.table[k] = some n) (r : CloseReason) :
    s.closeIncident k r = { s with
      inc := { s.inc with table := s.inc.table.set k (some (n.closedBy r)), queue := s.inc.queue ++ [k] }
      link := s.link.notify s.time.tod (n.closedNotice r) } := by
  unfold State.closeIncident
  rw [here]
  rfl

/-- A state after an offer to the incident in a slot: capture memory, that incident, the commit queue and the notices. -/
structure State.Arrived (s t : State) (c : Capture) (k : Fin 4) (n : Incident) (queue : List (Fin 4))
    (ns : List Notice) : Prop where
  capture : t.capture = c
  lines : t.lines = s.lines
  store : t.store = s.store
  time : t.time = s.time
  table : t.inc.table = s.inc.table.set k (some n)
  queue : t.inc.queue = queue
  joins : s.Queues 1 [6] → s.link.Appends t.link s.time.tod ns

theorem State.closeIncident_appends {s : State} {k : Fin 4} {n : Incident} (here : s.inc.table[k] = some n)
    (r : CloseReason) (q : s.Queues 1 [6]) :
    s.link.Appends (s.closeIncident k r).link s.time.tod [n.closedNotice r] := by
  obtain ⟨busy, room, kinds⟩ := q
  rw [State.closeIncident_eq here]
  exact Link.notify_appends _ busy (kinds 6 List.mem_cons_self) (by omega)

/-- An incident that has taken a frame (R81). -/
def Incident.withFrame (n : Incident) (c : Capture) (id : Nat) : Incident :=
  { n with frames := c.place id n.frames, budget := n.budget + c.cost id, postFrames := n.postFrames + 1 }

section
variable {s : State} {id : Nat} {line : Fin 8} {k : Fin 4} {n : Incident} (here : s.inc.table[k] = some n)
  (collects : n.state = .collecting) (admits : n.captureSet.getLsbD line.val = true) (new : id ∉ n.frames)

include here collects admits new in
theorem State.offerFrame_eq : s.offerFrame id line k
    = if 32624 < n.budget + s.capture.cost id then s.closeIncident k .full
      else
        let t := ({ s with capture := s.capture.pin id }).setIncident k (some (n.withFrame s.capture id))
        if n.postCount ≠ 0 ∧ n.postFrames + 1 = n.postCount then t.closeIncident k .count else t := by
  unfold State.offerFrame
  rw [here]
  exact if_pos ⟨collects, admits, new⟩

include here collects admits new in
/-- A frame beyond the byte budget closes the incident (R82). -/
theorem State.offerFrame_full (full : 32624 < n.budget + s.capture.cost id) :
    s.Arrived (s.offerFrame id line k) s.capture k (n.closedBy .full) (s.inc.queue ++ [k]) [n.closedNotice .full] := by
  rw [State.offerFrame_eq here collects admits new, if_pos full]
  have joins := State.closeIncident_appends here .full
  rw [State.closeIncident_eq here] at joins ⊢
  exact ⟨rfl, rfl, rfl, rfl, rfl, rfl, joins⟩

include here collects admits new in
/-- A frame within it is attached and pinned (R81). -/
theorem State.offerFrame_fits (fits : n.budget + s.capture.cost id ≤ 32624)
    (more : ¬ (n.postCount ≠ 0 ∧ n.postFrames + 1 = n.postCount)) :
    s.Arrived (s.offerFrame id line k) (s.capture.pin id) k (n.withFrame s.capture id) s.inc.queue [] := by
  rw [State.offerFrame_eq here collects admits new, if_neg (Nat.not_lt.mpr fits)]
  dsimp only
  rw [if_neg more]
  exact ⟨rfl, rfl, rfl, rfl, rfl, rfl, fun _ => s.link.appends_refl _⟩

include here collects admits new in
/-- The last of its post count closes the incident (R82). -/
theorem State.offerFrame_closes (fits : n.budget + s.capture.cost id ≤ 32624)
    (last : n.postCount ≠ 0 ∧ n.postFrames + 1 = n.postCount) :
    s.Arrived (s.offerFrame id line k) (s.capture.pin id) k ((n.withFrame s.capture id).closedBy .count)
      (s.inc.queue ++ [k]) [(n.withFrame s.capture id).closedNotice .count] := by
  let t := ({ s with capture := s.capture.pin id }).setIncident k (some (n.withFrame s.capture id))
  have held : t.inc.table[k] = some (n.withFrame s.capture id) := (vector_get_set s.inc.table k k _).trans (if_pos rfl)
  have joins := State.closeIncident_appends held .count
  rw [State.offerFrame_eq here collects admits new, if_neg (Nat.not_lt.mpr fits)]
  dsimp only
  rw [if_pos last]
  change s.Arrived (t.closeIncident k .count) _ _ _ _ _
  rw [State.closeIncident_eq held] at joins ⊢
  exact ⟨rfl, rfl, rfl, rfl, Vector.set_set _ k.isLt, rfl, joins⟩

end

/-! ### The statement -/

theorem State.framesPlaced.awaiting_frame {s : State} (placed : s.framesPlaced) {i : Fin 8} {id : Nat} {rest : List Nat}
    (awaiting : s.lines[i].awaiting = id :: rest) {f : Frame} (frame : s.capture.frame? id = some f) :
    f.place = .inReception ∧ f.line = i ∧ ∀ j : Fin 8, id ∉ s.capture.hist[j] ∧ id ∉ s.capture.handed[j] := by
  have lists := s.framesPlaced_iff.mp placed
  have named : id ∈ s.capture.named (s.reception none) .inReception i := by
    change id ∈ s.reception none i
    unfold State.reception Line.unplaced
    rw [awaiting]
    exact List.mem_cons_self
  obtain ⟨g, found, place, line⟩ := lists.frame named
  obtain rfl := Option.some.inj (frame.symm.trans found)
  refine ⟨place, line, fun j => ⟨fun hist => ?_, fun handed => ?_⟩⟩
  · exact Place.noConfusion (lists.named_unique named (q := .inHistory) (j := j) hist).1
  · exact Place.noConfusion (lists.named_unique named (q := .handedOut) (j := j) handed).1

/-- What the keep claim of a frame that has arrived leaves in its slot, its history and its line. -/
theorem State.keepClaim_arrived {s : State} {i : Fin 8} {id : Nat} {g : Frame} (frame : s.capture.frame? id = some g)
    (unlisted : id ∉ s.capture.hist[i]) :
    (s.atLimit i → (s.keepClaim i id).capture.hist = s.capture.hist
        ∧ (s.keepClaim i id).capture.frame? id = g.left
        ∧ (g.pins ≠ 0 → (s.keepClaim i id).lines[i].counters = s.lines[i].counters))
      ∧ (¬ s.atLimit i → s.Kept (s.keepClaim i id) i id g) := by
  refine ⟨fun limit => ?_, s.keepClaim_kept i frame unlisted⟩
  have left : (s.capture.leave id).frame? id = g.left := by
    rw [Capture.leave_frame_same, frame]
    rfl
  have hist : (s.capture.leave id).hist = s.capture.hist := by rw [Capture.leave_only]
  rw [s.keepClaim_atLimit i frame limit]
  split
  next free => exact ⟨hist, left, fun pinned => (pinned free).elim⟩
  next => exact ⟨hist, left, fun _ => rfl⟩

/-- The state in which the frame of a slot, which no entry matches, is offered. -/
def State.offering (s : State) (i : Fin 8) (id : Nat) (rest : List Nat) : State :=
  (s.modLine i fun l => { l with awaiting := rest }).evaluated s.matcher id 0

/-- Where a frame stands after a keep claim at a line's limit, and below it (R30 to R33). -/
structure State.Stands (s t : State) (i : Fin 8) (id : Nat) (g : Frame) : Prop where
  full : s.atLimit i → t.capture.hist = s.capture.hist ∧ t.capture.frame? id = g.left
    ∧ (g.pins ≠ 0 → t.lines[i].counters = s.lines[i].counters)
  below : ¬ s.atLimit i → t.capture.frame? id = some { g with place := .inHistory } ∧ id ∈ t.capture.hist[i]
    ∧ t.lines[i].counters = { s.lines[i].counters with kept := s.lines[i].counters.kept + 1 }

section
variable {i : Fin 8} {s : State} {id : Nat} {rest : List Nat} {f : Frame} {k : Fin 4}
  (placed : s.framesPlaced) (disabled : ∀ e : Fin 16, s.matcher.entries[e].body.enabled ≠ 1)
  (awaiting : s.lines[i].awaiting = id :: rest) (frame : s.capture.frame? id = some f)
  (keep : isBad f.check f.flags = false ∨ s.lines[i].cfg.keepBad = true) (opened : s.inc.opened = [k])
  (busy : s.arrayIdle = false)

include placed disabled awaiting frame keep opened busy in
/-- CLASSIFICATION of a kept frame with one incident to offer it to, by what the offer leaves. -/
theorem classification_offered {c : Capture} {m : Incident} {queue : List (Fin 4)} {ns : List Notice} {g : Frame}
    (arrived : (s.offering i id rest).Arrived ((s.offering i id rest).offerFrame id i k) c k m queue ns)
    (slot : c.frame? id = some g) (hist : c.hist = s.capture.hist) (handed : c.handed = s.capture.handed) :
    Completes (.classification i) s fun t =>
      t.inc.table = s.inc.table.set k (some m) ∧ t.inc.queue = queue
        ∧ (s.Queues 1 [6] → ∀ q ∈ ns, q ∈ s.joined t)
        ∧ s.Stands t i id g := by
  let x := (s.offering i id rest).offerFrame id i k
  have unlisted : id ∉ x.capture.hist[i] := by
    obtain ⟨-, -, apart⟩ := placed.awaiting_frame awaiting frame
    rw [arrived.capture, hist]
    exact (apart i).1
  have run : (s.modLine i fun l => { l with awaiting := rest }).classifyFrame i id f = x.keepClaim i id := by
    have kept := State.classifyFrame_kept (s := s.modLine i fun l => { l with awaiting := rest }) (id := id) (f := f)
      disabled (i := i) (by rwa [State.modLine_same])
    have arrives : (s.offering i id rest).arrive id i = x := by
      unfold State.arrive
      rw [show (s.offering i id rest).inc.opened = [k] from opened]
      rfl
    exact kept.trans (congrArg (State.keepClaim · i id) arrives)
  have claims := x.claims_keepClaim i id
  have line : x.lines[i] = { s.lines[i] with awaiting := rest } := by
    rw [arrived.lines]
    exact s.modLine_same i fun l => { l with awaiting := rest }
  have limit : x.atLimit i ↔ s.atLimit i := by
    have total : x.capture.total i = s.capture.total i := by
      unfold Capture.total
      rw [arrived.capture, hist, handed]
    unfold State.atLimit
    rw [line, total]
  obtain ⟨full, kept⟩ := State.keepClaim_arrived (s := x) (arrived.capture.symm ▸ slot) unlisted
  refine ⟨_, exec_classification awaiting frame busy run (claims.store.trans arrived.store), ?_, ?_, fun queues q hq => ?_,
    fun h => ?_, fun h => ?_⟩
  · rw [State.claimed_inc, claims.inc]
    exact arrived.table
  · rw [State.claimed_inc, claims.inc]
    exact arrived.queue
  · exact (State.joined_claimed i queues.1 (arrived.joins queues) arrived.time claims).subset hq
  · obtain ⟨same, left, counters⟩ := full (limit.mpr h)
    rw [State.claimed_hist, State.claimed_frame, State.claimed_counters, same, arrived.capture, hist]
    exact ⟨rfl, left, fun pinned => (counters pinned).trans (by rw [line])⟩
  · have kept := kept fun full => h (limit.mp full)
    rw [State.claimed_frame, State.claimed_hist, State.claimed_counters]
    exact ⟨kept.frame, kept.listed, kept.counters.trans (by rw [line])⟩

end

/-- Settles O44: the frame fits and closes the incident or does not, or closes it for want of room. -/
theorem keptFrameJoinsTheCollectingIncident : Obligations.KeptFrameJoinsTheCollectingIncident := by
  intro i s id rest f k n l cost closes limit placed pins disabled awaiting frame keep here opened collects admits busy
  let a := s.offering i id rest
  obtain ⟨place, -, -⟩ := placed.awaiting_frame awaiting frame
  obtain ⟨-, -, unpinned⟩ := pins.2 id f frame
  have free : f.pins = 0 := unpinned place
  have new : id ∉ n.frames := (s.pinsAgree_iff.mp pins).not_held (.inr ⟨f, frame, free⟩) here
  have keys : s.capture.SameKeys a.capture := s.capture.matchedBy_keys id 0
  have costs : a.capture.cost id = cost := by
    rw [keys.cost, Capture.cost, frame]
    rfl
  have slot : a.capture.frame? id = some { f with matchSet := 0 } := s.capture.matchedBy_frame id 0 frame
  have hist : a.capture.hist = s.capture.hist := s.capture.matchedBy_hist id 0
  have handed : a.capture.handed = s.capture.handed := s.capture.matchedBy_handed id 0
  have pinned : (a.capture.pin id).frame? id = some { f with matchSet := 0, pins := 1 } := by
    refine (a.capture.modFrame_frame_same id _).trans ?_
    rw [slot, Option.map_some, free]
  have pinnedHist : (a.capture.pin id).hist = s.capture.hist := (a.capture.pin_hist id).trans hist
  have pinnedHanded : (a.capture.pin id).handed = s.capture.handed := (a.capture.pin_handed id).trans handed
  have taken : n.withFrame a.capture id
      = { n with frames := s.capture.place id n.frames, budget := n.budget + cost, postFrames := n.postFrames + 1 } := by
    unfold Incident.withFrame
    rw [keys.place, costs]
  have longer : (s.capture.place id n.frames).length = n.frames.length + 1 := (s.capture.place_perm id n.frames).length_eq
  have ends {t : State} (h : s.Stands t i id { f with matchSet := 0, pins := 1 }) :
      t.capture.frame? id = some { f with matchSet := 0, pins := 1, place := if limit then .detached else .inHistory }
        ∧ (limit → t.capture.hist = s.capture.hist ∧ t.lines[i].counters = l.counters)
        ∧ (¬ limit → id ∈ t.capture.hist[i] ∧ t.lines[i].counters = { l.counters with kept := l.counters.kept + 1 }) := by
    by_cases reached : limit
    · obtain ⟨same, left, counters⟩ := h.full reached
      rw [if_pos reached]
      exact ⟨left, fun _ => ⟨same, counters Nat.one_ne_zero⟩, fun h => (h reached).elim⟩
    · obtain ⟨kept, listed, counters⟩ := h.below reached
      rw [if_neg reached]
      exact ⟨kept, fun h => (reached h).elim, fun _ => ⟨listed, counters⟩⟩
  by_cases fits : n.budget + cost ≤ 32624
  · have within : n.budget + a.capture.cost id ≤ 32624 := costs.symm ▸ fits
    by_cases last : closes
    · obtain ⟨t, run, table, queue, joins, stands⟩ := classification_offered placed disabled awaiting frame keep opened
        busy (State.offerFrame_closes (s := a) here collects admits new within last) pinned pinnedHist pinnedHanded
      rw [taken] at table joins
      refine ⟨t, run, ?_⟩
      beta_reduce
      simp only [if_pos fits, if_pos last]
      refine ⟨table, queue, fun _ queues => ?_, ends stands⟩
      rw [← longer]
      exact joins queues _ List.mem_cons_self
    · obtain ⟨t, run, table, queue, -, stands⟩ := classification_offered placed disabled awaiting frame keep opened
        busy (State.offerFrame_fits (s := a) here collects admits new within last) pinned pinnedHist pinnedHanded
      rw [taken, collects] at table
      refine ⟨t, run, ?_⟩
      beta_reduce
      simp only [if_pos fits, if_neg last]
      exact ⟨table, queue, fun h => (last h).elim, ends stands⟩
  · have beyond : 32624 < n.budget + a.capture.cost id := costs.symm ▸ Nat.not_le.mp fits
    obtain ⟨t, run, table, queue, joins, stands⟩ := classification_offered placed disabled awaiting frame keep opened
      busy (State.offerFrame_full (s := a) here collects admits new beyond) slot hist handed
    refine ⟨t, run, ?_⟩
    beta_reduce
    simp only [if_neg fits]
    refine ⟨table, queue, fun queues => joins queues _ List.mem_cons_self, fun reached => ?_, fun room => ?_⟩
    · obtain ⟨-, left, -⟩ := stands.full reached
      exact left.trans (if_pos free)
    · obtain ⟨kept, -⟩ := stands.below room
      rw [kept, free]

end Sys2Proof.Machine
end

section
/-! PROOFS. The frames an incident holds when it opens: their order, the pre-window and the byte budget (R74 to R77). -/

namespace Sys2Proof.Machine

/-! ### The order of frame lists (R76) -/

theorem Capture.isBefore_iff (c : Capture) (b a : Nat) : c.isBefore b a = true ↔
    ∃ g f, c.frame? b = some g ∧ c.frame? a = some f ∧ (g.start < f.start ∨ (g.start = f.start ∧ g.line < f.line)) := by
  unfold Capture.isBefore
  constructor
  · intro h
    split at h
    next g f hg hf => exact ⟨g, f, hg, hf, by simpa [frameBefore] using h⟩
    next => exact (Bool.false_ne_true h).elim
  · rintro ⟨g, f, hg, hf, h⟩
    rw [hg, hf]
    simpa [frameBefore] using h

/-- Frames of one line stand in its lists, and behind these in reception, in the order they came in. -/
def State.comesBefore (s : State) (a b : Nat) : Prop :=
  ∃ f g, s.capture.frame? a = some f ∧ s.capture.frame? b = some g ∧ (f.line = g.line →
    [a, b].Sublist (s.capture.handed[f.line] ++ s.capture.hist[f.line] ++ s.lines[f.line].awaiting))

theorem State.precedes_of_isBefore {s : State} {a b : Nat} (h : s.capture.isBefore a b = true) : s.precedes a b := by
  obtain ⟨f, g, hf, hg, earlier⟩ := (s.capture.isBefore_iff a b).mp h
  exact ⟨f, g, hf, hg, earlier.imp_right fun ⟨start, line⟩ => ⟨start, .inl line⟩⟩

/-- A frame that comes before another precedes it, unless the other is earlier by start and line. -/
theorem State.precedes_of_comesBefore {s : State} {a b : Nat} (came : s.comesBefore a b)
    (h : s.capture.isBefore b a = false) : s.precedes a b := by
  obtain ⟨f, g, hf, hg, sameLine⟩ := came
  refine ⟨f, g, hf, hg, ?_⟩
  have late : ¬ (g.start < f.start ∨ (g.start = f.start ∧ g.line < f.line)) := fun early =>
    Bool.false_ne_true (h.symm.trans ((s.capture.isBefore_iff b a).mpr ⟨g, f, hg, hf, early⟩))
  obtain ⟨notStart, notLine⟩ := not_or.mp late
  obtain start | start := Nat.lt_or_eq_of_le (BitVec.le_def.mp (BitVec.not_lt.mp notStart))
  · exact .inl (BitVec.lt_def.mpr start)
  · have start : f.start = g.start := BitVec.eq_of_toNat_eq start
    refine .inr ⟨start, ?_⟩
    obtain line | line := lt_or_eq_of_le (not_lt.mp fun line => notLine ⟨start.symm, line⟩)
    · exact .inl line
    · exact .inr ⟨line, sameLine line⟩

theorem State.isBefore_precedes {s : State} {a b c : Nat} (h : s.capture.isBefore a b = true) (g : s.precedes b c) :
    s.precedes a c := by
  obtain ⟨f, m, hf, hm, first⟩ := (s.capture.isBefore_iff a b).mp h
  obtain ⟨m', l, hm', hl, second⟩ := g
  obtain rfl := Option.some.inj (hm.symm.trans hm')
  refine State.precedes_of_isBefore ((s.capture.isBefore_iff a c).mpr ⟨f, l, hf, hl, ?_⟩)
  obtain start | ⟨start, line⟩ := first
  · obtain later | ⟨same, -⟩ := second
    · exact .inl (BitVec.lt_trans start later)
    · exact .inl (same ▸ start)
  · obtain later | ⟨same, behind | ⟨line', -⟩⟩ := second
    · exact .inl (start ▸ later)
    · exact .inr ⟨start.trans same, line.trans behind⟩
    · exact .inr ⟨start.trans same, line' ▸ line⟩

theorem State.place_precedes {s : State} {id : Nat} {l : List Nat} (sorted : l.Pairwise s.precedes)
    (came : ∀ x ∈ l, s.comesBefore x id) : (s.capture.place id l).Pairwise s.precedes := by
  induction l with
  | nil => exact List.pairwise_singleton _ _
  | cons x rest ih =>
    obtain ⟨first, sortedRest⟩ := List.pairwise_cons.mp sorted
    unfold Capture.place
    split
    next before =>
      refine List.pairwise_cons.mpr ⟨fun y hy => ?_, sorted⟩
      obtain rfl | behind := List.mem_cons.mp hy
      · exact State.precedes_of_isBefore before
      · exact State.isBefore_precedes before (first y behind)
    next after =>
      refine List.pairwise_cons.mpr ⟨fun y hy => ?_, ih sortedRest fun y hy => came y (List.mem_cons_of_mem x hy)⟩
      obtain rfl | behind := List.mem_cons.mp ((s.capture.place_perm id rest).subset hy)
      · exact State.precedes_of_comesBefore (came x List.mem_cons_self) (Bool.not_eq_true _ ▸ after)
      · exact first y behind

/-- Placing frames one after another, as they come, sorts them (R76). -/
theorem State.ordered_precedes {s : State} {ids : List Nat} (came : ids.Pairwise s.comesBefore) :
    (s.capture.ordered ids).Pairwise s.precedes := by
  have placing (acc : List Nat) (sorted : acc.Pairwise s.precedes) (behind : ∀ x ∈ acc, ∀ y ∈ ids, s.comesBefore x y) :
      (ids.foldl (fun acc id => s.capture.place id acc) acc).Pairwise s.precedes := by
    induction ids generalizing acc with
    | nil => exact sorted
    | cons a rest ih =>
      obtain ⟨first, cameRest⟩ := List.pairwise_cons.mp came
      refine ih cameRest _ (State.place_precedes sorted fun x hx => behind x hx a List.mem_cons_self) fun x hx y hy => ?_
      obtain rfl | old := List.mem_cons.mp ((s.capture.place_perm a acc).subset hx)
      · exact first y hy
      · exact behind x old y (List.mem_cons_of_mem a hy)
  exact placing [] List.Pairwise.nil fun x h => (List.not_mem_nil h).elim

theorem Capture.SameKeys.ordered {c d : Capture} (h : c.SameKeys d) (ids : List Nat) : d.ordered ids = c.ordered ids := by
  unfold Capture.ordered
  congr 1
  funext acc id
  exact h.place id acc

/-! ### The pre-window (R74, R75) -/

/-- Frames stand in lists as they are read: those of a capture memory with the same lists and keys. -/
structure State.SameLists (s : State) (c : Capture) : Prop where
  keys : s.capture.SameKeys c
  hist : c.hist = s.capture.hist
  handed : c.handed = s.capture.handed

theorem State.matchedBy_lists (s : State) (id : Nat) (v : Half) : s.SameLists (s.capture.matchedBy id v) :=
  ⟨s.capture.matchedBy_keys id v, s.capture.matchedBy_hist id v, s.capture.matchedBy_handed id v⟩

theorem State.framesPlaced.listed_frame {s : State} (placed : s.framesPlaced) {i : Fin 8} {id : Nat}
    (h : id ∈ s.capture.handed[i] ++ s.capture.hist[i]) : ∃ f, s.capture.frame? id = some f ∧ f.line = i := by
  obtain ⟨f, frame, line, -⟩ := Capture.Placed.frame_of_listed (s.framesPlaced_iff.mp placed) h
  exact ⟨f, frame, line⟩

section
variable {s : State} {c : Capture} (placed : s.framesPlaced) (lists : s.SameLists c)

include lists in
theorem State.SameLists.lineCandidates (n : Nat) (trigger : Option Frame) (i : Fin 8) :
    (c.lineCandidates n trigger i).Sublist (s.capture.handed[i] ++ s.capture.hist[i]) := by
  have sublist := c.lineCandidates_subset n trigger i
  rwa [lists.hist, lists.handed] at sublist

include placed lists in
theorem State.preIds_comesBefore (set : Byte) (n : Nat) (trigger : Option Frame) :
    (c.preIds set n trigger).Pairwise s.comesBefore := by
  refine List.pairwise_flatMap.mpr ⟨fun i _ => ?_, ?_⟩
  · refine List.Pairwise.sublist (lists.lineCandidates n trigger i) (List.pairwise_iff_forall_sublist.mpr fun {a b} sub => ?_)
    obtain ⟨f, hf, lineF⟩ := placed.listed_frame (sub.subset List.mem_cons_self)
    obtain ⟨g, hg, -⟩ := placed.listed_frame (sub.subset (List.mem_cons_of_mem a List.mem_cons_self))
    refine ⟨f, g, hf, hg, fun _ => ?_⟩
    subst lineF
    exact sub.trans (List.sublist_append_left _ _)
  · refine ((List.nodup_finRange 8).sublist List.filter_sublist).imp fun {i j} different a ha b hb => ?_
    obtain ⟨f, hf, lineF⟩ := placed.listed_frame ((lists.lineCandidates n trigger i).subset ha)
    obtain ⟨g, hg, lineG⟩ := placed.listed_frame ((lists.lineCandidates n trigger j).subset hb)
    exact ⟨f, g, hf, hg, fun same => (different (lineF.symm.trans (same.trans lineG))).elim⟩

include lists in
theorem State.preIds_listed {set : Byte} {n : Nat} {trigger : Option Frame} {a : Nat} (h : a ∈ c.preIds set n trigger) :
    ∃ i : Fin 8, a ∈ s.capture.handed[i] ++ s.capture.hist[i] := by
  obtain ⟨i, -, hi⟩ := List.mem_flatMap.mp h
  exact ⟨i, (lists.lineCandidates n trigger i).subset hi⟩

include placed lists in
/-- The candidates of a pre-window are those of the statements. -/
theorem State.preIds_eq {t : Frame} {seq : Half} {n : Incident} (trigger : n.trigger = some (t.line, seq))
    (time : n.triggerTime = t.start) : c.preIds n.captureSet n.preCount (some t) = s.preCandidates n := by
  unfold Capture.preIds State.preCandidates
  congr 1
  funext i
  have before : (c.handed[i] ++ c.hist[i]).filter (fun id => (c.frame? id).any fun f => frameBefore f t)
      = (s.capture.handed[i] ++ s.capture.hist[i]).filter fun id => (s.capture.frame? id).any fun f =>
          decide (f.start < n.triggerTime ∨ (f.start = n.triggerTime ∧ i < t.line)) := by
    rw [lists.hist, lists.handed]
    refine List.filter_congr fun id hid => ?_
    obtain ⟨f, hf, line⟩ := placed.listed_frame hid
    have key := lists.keys id
    rw [hf] at key
    obtain ⟨g, hg, same⟩ := Option.map_eq_some_iff.mp key
    obtain ⟨start, place⟩ := Prod.mk.inj same
    obtain ⟨lines, -⟩ := Prod.mk.inj place
    rw [hg, hf, time]
    simp only [Option.any_some, frameBefore, start, lines, line]
    rw [Bool.eq_iff_iff]
    simp
  unfold Capture.lineCandidates
  rw [trigger]
  dsimp only
  split
  next => rw [lists.hist, lists.handed]; rfl
  next => rw [before]; rfl

end

/-! ### What an opening attaches (R74 to R77) -/

/-- The incident that an opening on the oldest frame awaiting classification attaches frames to. -/
theorem State.holds_preWindow {s : State} {c : Capture} {i : Fin 8} {id : Nat} {rest : List Nat} {f t : Frame} {seq : Half}
    {n : Incident} (placed : s.framesPlaced) (awaiting : s.lines[i].awaiting = id :: rest)
    (frame : s.capture.frame? id = some f) (lists : s.SameLists c) (slot : c.frame? id = some t)
    (trigger : n.trigger = some (i, seq)) (time : n.triggerTime = f.start)
    (window : c.preWindow n.captureSet n.preCount (some id) = (n.frames, n.budget, n.preTrimmed)) :
    s.Holds n (some id) := by
  obtain ⟨-, line, -⟩ := placed.awaiting_frame awaiting frame
  have key := lists.keys id
  rw [slot, frame] at key
  obtain ⟨start, keyRest⟩ := Prod.mk.inj (Option.some.inj key)
  obtain ⟨lineT, -⟩ := Prod.mk.inj keyRest
  obtain ⟨left, taken, split, run, within, beyond⟩ := c.preWindow_spec n.captureSet n.preCount (some id)
  obtain ⟨frames, rest'⟩ := Prod.mk.inj (window.symm.trans run)
  obtain ⟨budget, trimmed⟩ := Prod.mk.inj rest'
  dsimp only at frames
  rw [← budget] at within
  simp only [← budget] at beyond
  have candidates : c.preIds n.captureSet n.preCount (some t) = s.preCandidates n :=
    State.preIds_eq placed lists (seq := seq) (by rw [trigger, show t.line = i from lineT.trans line]) (time.trans start.symm)
  have bound : (some id).bind c.frame? = some t := slot
  rw [bound] at split
  have came : (c.preIds n.captureSet n.preCount (some t)).Pairwise s.comesBefore :=
    State.preIds_comesBefore placed lists _ _ _
  have perm := c.ordered_perm (c.preIds n.captureSet n.preCount (some t))
  have sorted : (left ++ taken).Pairwise s.precedes := by
    rw [← split, lists.keys.ordered]
    exact State.ordered_precedes came
  have last (x : Nat) (hx : x ∈ taken) : s.comesBefore x id := by
    have mem : x ∈ c.preIds n.captureSet n.preCount (some t) := perm.subset (split ▸ List.mem_append_right left hx)
    obtain ⟨j, hj⟩ := State.preIds_listed lists mem
    obtain ⟨g, hg, lineG⟩ := placed.listed_frame hj
    refine ⟨g, f, hg, frame, fun same => ?_⟩
    obtain rfl : j = i := lineG.symm.trans (same.trans line)
    subst lineG
    rw [awaiting]
    exact (List.singleton_sublist.mpr hj).append (List.singleton_sublist.mpr List.mem_cons_self)
  have costs (x : Nat) : c.cost x = s.costOf x := lists.keys.cost x
  have held : n.frames.Perm (taken ++ [id]) := by
    rw [frames]
    exact (c.place_perm id taken).trans (List.perm_append_comm (l₁ := [id]))
  refine ⟨left, taken, ?_, sorted, held, ?_, ?_, ?_, fun h => within h, fun x hx => ?_⟩
  · rw [← candidates, ← split]
    exact perm
  · rw [frames, lists.keys.place]
    exact State.place_precedes (List.pairwise_append.mp sorted).2.1 last
  · rw [budget, (held.map s.costOf).sum_eq, List.map_append, List.sum_append, Nat.add_comm]
    simp [funext costs]
  · rw [trimmed]
    exact decide_eq_true_iff
  · rw [← costs]
    exact beyond x hx

theorem State.Holds.budget_le {s : State} {n : Incident} {id : Nat} {f : Frame} (h : s.Holds n (some id))
    (frame : s.capture.frame? id = some f) (short : f.length ≤ 1024) : n.budget ≤ 32624 := by
  obtain ⟨left, taken, -, -, held, -, budget, -, within, -⟩ := h
  by_cases alone : taken = []
  · subst alone
    have sum : n.budget = s.costOf id := by
      rw [budget, (held.map s.costOf).sum_eq]
      simp
    rw [sum, State.costOf, frame]
    simp only [Option.map_some, Option.getD_some]
    omega
  · exact within alone

end Sys2Proof.Machine
end

section
/-! PROOFS. CLASSIFICATION of a frame that one entry matches (R54, R57 to R59, R61, R73, R74). -/

namespace Sys2Proof.Machine

/-! ### One entry matches (R54, R57, R59) -/

/-- The evaluation of one entry by a test. -/
def Matcher.tryEntry (test : Matcher → EntryDef → Bool) (t : Stamp) (r : Matcher × Half) (e : Fin 16) : Matcher × Half :=
  let x := r.1.entries[e]
  if test r.1 x.body then (r.1.setEntry e (x.matched t), r.2 ||| (1#16 <<< e.val)) else r

theorem Matcher.evaluate_eq (m : Matcher) (test : Matcher → EntryDef → Bool) (t : Stamp) :
    m.evaluate test t = allEntries.foldl (Matcher.tryEntry test t) (m, 0) := rfl

theorem Matcher.foldl_tryEntry_none (test : Matcher → EntryDef → Bool) (t : Stamp) (r : Matcher × Half)
    (es : List (Fin 16)) (miss : ∀ d ∈ es, test r.1 r.1.entries[d].body = false) :
    es.foldl (Matcher.tryEntry test t) r = r := by
  induction es with
  | nil => rfl
  | cons d rest ih =>
    have first : Matcher.tryEntry test t r d = r :=
      if_neg (by rw [miss d List.mem_cons_self]; exact Bool.false_ne_true)
    rw [List.foldl_cons, first]
    exact ih fun x hx => miss x (List.mem_cons_of_mem d hx)

theorem Matcher.setEntry_other (m : Matcher) (e d : Fin 16) (h : d ≠ e) (x : Entry) :
    (m.setEntry e x).entries[d] = m.entries[d] := (vector_get_set m.entries e d x).trans (if_neg h)

theorem Matcher.setEntry_same (m : Matcher) (e : Fin 16) (x : Entry) : (m.setEntry e x).entries[e] = x :=
  (vector_get_set m.entries e e x).trans (if_pos rfl)

/-- A test that one entry meets, and no other before or after, records that match. -/
theorem Matcher.evaluate_one (m : Matcher) (test : Matcher → EntryDef → Bool) (t : Stamp) (e : Fin 16)
    (hit : test m m.entries[e].body = true) (miss : ∀ u : Matcher, ∀ d, d ≠ e → test u m.entries[d].body = false) :
    m.evaluate test t = (m.setEntry e (m.entries[e].matched t), 1#16 <<< e.val) := by
  obtain ⟨before, behind, split⟩ := List.append_of_mem (List.mem_finRange e)
  have once : (before ++ e :: behind).Nodup := split ▸ List.nodup_finRange 16
  have notBefore : ∀ d ∈ before, d ≠ e := fun d hd same =>
    (List.nodup_append.mp once).2.2 d hd e List.mem_cons_self same
  have notBehind : ∀ d ∈ behind, d ≠ e := fun d hd same =>
    (List.nodup_cons.mp (List.nodup_append.mp once).2.1).1 (same ▸ hd)
  have here : Matcher.tryEntry test t (m, 0) e = (m.setEntry e (m.entries[e].matched t), 1#16 <<< e.val) := by
    unfold Matcher.tryEntry
    dsimp only
    rw [if_pos hit, show (0 : Half) ||| 1#16 <<< e.val = 1#16 <<< e.val from BitVec.zero_or]
  rw [Matcher.evaluate_eq, show allEntries = before ++ e :: behind from split, List.foldl_append, List.foldl_cons,
    Matcher.foldl_tryEntry_none test t _ before fun d hd => miss m d (notBefore d hd), here]
  refine Matcher.foldl_tryEntry_none test t _ behind fun d hd => ?_
  rw [Matcher.setEntry_other m e d (notBehind d hd)]
  exact miss _ d (notBehind d hd)

theorem inSet_bit (e d : Fin 16) : inSet (1#16 <<< e.val) d.val = decide (d = e) := by
  have small := d.isLt
  unfold inSet
  rw [BitVec.getLsbD_shiftLeft, BitVec.getLsbD_one, Bool.eq_iff_iff]
  simp only [Bool.and_eq_true, Bool.not_eq_true', decide_eq_true_eq, decide_eq_false_iff_not, Fin.ext_iff]
  omega

theorem allEntries_filter_eq (e : Fin 16) : (allEntries.filter fun d => decide (d = e)) = [e] := by
  decide +revert

/-- The one entry that matched fires when its action is TRIGGER, and not in holdoff (R57). -/
theorem Matcher.firing_bit (m : Matcher) (e : Fin 16) : m.firing (1#16 <<< e.val)
    = if m.entries[e].body.action = 2 ∧ m.entries[e].holdoffEnd = none then [e] else [] := by
  have mine (d : Fin 16) : (inSet (1#16 <<< e.val) d.val && m.entries[d].body.action == actionTrigger
        && m.entries[d].holdoffEnd.isNone)
      = (decide (m.entries[e].body.action = 2 ∧ m.entries[e].holdoffEnd = none) && decide (d = e)) := by
    rw [inSet_bit]
    by_cases same : d = e
    · subst same
      rw [Bool.eq_iff_iff]
      simp [actionTrigger]
    · simp [same]
  unfold Matcher.firing
  simp only [mine]
  split
  next fires =>
    simp only [decide_eq_true fires, Bool.true_and]
    exact allEntries_filter_eq e
  next quiet =>
    simp only [decide_eq_false quiet, Bool.false_and]
    exact List.filter_false _

/-- A good frame that one entry matched is dropped by action DROP alone, when it has opened no incident (R59). -/
theorem State.drops_bit (s : State) (i : Fin 8) {f : Frame} (good : isBad f.check f.flags = false) (e : Fin 16)
    (opened : Bool) : s.drops i f (1#16 <<< e.val) opened
      = (decide (s.matcher.entries[e].body.action = 1) && !opened) := by
  have mine : (allEntries.any fun d => inSet (1#16 <<< e.val) d.val && s.matcher.entries[d].body.action == actionDrop)
      = decide (s.matcher.entries[e].body.action = 1) := by
    rw [Bool.eq_iff_iff, List.any_eq_true]
    simp only [inSet_bit, Bool.and_eq_true, decide_eq_true_eq, beq_iff_eq]
    constructor
    · rintro ⟨d, -, rfl, h⟩
      exact h
    · exact fun h => ⟨e, List.mem_finRange e, rfl, h⟩
  unfold State.drops
  dsimp only
  rw [mine, good, Bool.false_and, Bool.or_false]

/-! ### The arrival of a frame that no incident takes -/

/-- No incident takes a frame that every COLLECTING one holds (R81). -/
theorem State.arrive_held {s : State} {id : Nat} (h : ∀ k : Fin 4, ∀ n, s.inc.table[k] = some n → n.state = .collecting →
    id ∈ n.frames) (i : Fin 8) : s.arrive id i = s := by
  have offered (k : Fin 4) : s.offerFrame id i k = s := by
    unfold State.offerFrame
    split
    next => rfl
    next n here => exact if_neg fun ⟨collects, _, absent⟩ => absent (h k n here collects)
  unfold State.arrive
  induction s.inc.opened with
  | nil => rfl
  | cons k rest ih => rw [List.foldl_cons, offered k, ih]

/-! ### Opening in a free slot (R73, R83, R84) -/

/-- An incident as its opening leaves it: a post-window of count and time 0 closes it (R83). -/
def Incident.opening (n : Incident) : Incident := if n.postCount = 0 ∧ n.postTime = 0 then n.closedBy .count else n

/-- An opening: the frames it attaches are pinned, the incident stands in its slot, its notices are queued. -/
structure State.Opens (s t : State) (k : Fin 4) (n : Incident) : Prop where
  capture : t.capture = n.frames.foldl Capture.pin s.capture
  lines : t.lines = s.lines
  store : t.store = s.store
  time : t.time = s.time
  matcher : t.matcher = s.matcher
  table : t.inc.table = s.inc.table.set k (some n.opening)
  joins : s.Queues 2 [5, 6] → s.link.Appends t.link s.time.tod n.opening.openingNotices

theorem State.openIncident_opens {s : State} {k : Fin 4} (slot : s.inc.freeSlot = some k) (r : OpenRequest) :
    ∃ t, s.openIncident r = some t ∧ s.Opens t k (s.newIncident r (freshId s.inc.ids 4 s.inc.idCounter)) := by
  let id := freshId s.inc.ids 4 s.inc.idCounter
  let n := s.newIncident r id
  let s1 : State := { s with
    capture := n.frames.foldl Capture.pin s.capture
    inc := { s.inc with table := s.inc.table.set k (some n), opened := s.inc.opened ++ [k], idCounter := nextId id } }
  let opened : Notice := .incidentOpened id r.source r.entry r.trigger r.time n.captureSet n.frames.length n.budget
    n.preTrimmed
  let s2 := s1.notify opened
  have run : s.openIncident r = some (if n.postCount = 0 ∧ n.postTime = 0 then s2.closeIncident k .count else s2) := by
    unfold State.openIncident
    rw [slot]
  have first (q : s.Queues 2 [5, 6]) : s.link.Appends s2.link s.time.tod [opened] := by
    obtain ⟨busy, room, kinds⟩ := q
    exact Link.notify_appends _ busy (kinds 5 List.mem_cons_self) (by omega)
  refine ⟨_, run, ?_⟩
  by_cases closes : n.postCount = 0 ∧ n.postTime = 0
  · have here : s2.inc.table[k] = some n := (vector_get_set s.inc.table k k _).trans (if_pos rfl)
    have opening : n.opening = n.closedBy .count := if_pos closes
    have joins (q : s.Queues 2 [5, 6]) :
        s.link.Appends (s2.closeIncident k .count).link s.time.tod (n.closedBy .count).openingNotices := by
      obtain ⟨busy, room, kinds⟩ := q
      have before := first ⟨busy, room, kinds⟩
      obtain ⟨-, keeps, more, notices, named, -⟩ := first ⟨busy, room, kinds⟩
      have one : more.length = 1 := by simpa using congrArg List.length named
      obtain ⟨-, -, -, -, mask, -⟩ := keeps
      refine before.trans (State.closeIncident_appends here .count ⟨before.busy busy, ?_, fun kind h => ?_⟩)
      · rw [notices, List.length_append, one]
        omega
      · rw [mask]
        exact kinds kind (List.mem_cons_of_mem 5 h)
    rw [if_pos closes]
    rw [← opening] at joins
    rw [State.closeIncident_eq here] at joins ⊢
    exact ⟨rfl, rfl, rfl, rfl, rfl, (Vector.set_set _ k.isLt).trans (by rw [opening]), joins⟩
  · have opening : n.opening = n := if_neg closes
    rw [if_neg closes]
    exact ⟨rfl, rfl, rfl, rfl, rfl, by rw [opening]; rfl, by rw [opening]; exact first⟩

theorem State.openIncident_full {s : State} (full : ∀ k : Fin 4, s.inc.table[k] ≠ none) (r : OpenRequest) :
    s.openIncident r = none := by
  have none_free : s.inc.freeSlot = none :=
    List.find?_eq_none.mpr fun k _ free => full k (Option.isNone_iff_eq_none.mp free)
  unfold State.openIncident
  rw [none_free]

/-! ### A classified frame that is kept, and one that is dropped -/

/-- The state in which the frame of a slot has matched one entry. -/
def State.hit (s : State) (i : Fin 8) (id : Nat) (rest : List Nat) (f : Frame) (e : Fin 16) : State :=
  (s.modLine i fun l => { l with awaiting := rest }).evaluated
    (s.matcher.setEntry e (s.matcher.entries[e].matched f.start)) id (1#16 <<< e.val)

/-- A state in which a frame has been evaluated and its entries have fired: it is as the evaluation left it, but for
match unit, incidents, the link and the pins of frames. -/
structure State.Fired (s y : State) : Prop where
  lines : y.lines = s.lines
  store : y.store = s.store
  time : y.time = s.time
  hist : y.capture.hist = s.capture.hist

/-- What the end of a classification adds to the state in which its entries have fired. -/
structure State.Ends (s y t : State) : Prop where
  matcher : t.matcher = y.matcher
  inc : t.inc = y.inc.evaluated
  joins : ∀ ns, s.link.tx ≠ none → s.link.Appends y.link s.time.tod ns → ns <+: s.joined t

section
variable {i : Fin 8} {s : State} {id : Nat} {rest : List Nat} {f : Frame} {e : Fin 16}
  (placed : s.framesPlaced) (awaiting : s.lines[i].awaiting = id :: rest) (frame : s.capture.frame? id = some f)
  (good : isBad f.check f.flags = false) (ring : s.lines[i].cfg.policy = .ring)
  (alone : ∀ d : Fin 16, d ≠ e → s.matcher.entries[d].body.enabled ≠ 1)
  (hits : s.matcher.matchesFrame s.matcher.entries[e].body f (s.capture.frameBytes f) s.time.tod = true)
  (busy : s.arrayIdle = false)

include good alone hits in
/-- The classification of the frame by what firing leaves and whether it opened an incident. -/
theorem State.classifyFrame_hit {y : State} {opened : Bool}
    (fired : (s.hit i id rest f e).fire (frameRequest i id f)
        (if s.matcher.entries[e].body.action = 2 ∧ s.matcher.entries[e].holdoffEnd = none then [e] else []) = (y, opened))
    (body : y.matcher.entries[e].body = s.matcher.entries[e].body) :
    (s.modLine i fun l => { l with awaiting := rest }).classifyFrame i id f
      = if s.matcher.entries[e].body.action = 1 ∧ opened = false then y.dropClaim i id
        else (y.arrive id i).keepClaim i id := by
  let s1 := s.modLine i fun l => { l with awaiting := rest }
  have evaluated : s1.matcher.evaluate (fun m d => m.matchesFrame d f (s1.capture.frameBytes f) s1.time.tod) f.start
      = (s.matcher.setEntry e (s.matcher.entries[e].matched f.start), 1#16 <<< e.val) :=
    s.matcher.evaluate_one _ _ e hits fun u d other => u.matchesFrame_disabled (alone d other) _ _ _
  have run := State.classifyFrame_of (s := s1) (i := i) (id := id) evaluated
  rw [Matcher.firing_bit, Matcher.setEntry_same] at run
  change s1.classifyFrame i id f = _ at run
  refine run.trans ?_
  rw [show (s1.evaluated _ id (1#16 <<< e.val)).fire (frameRequest i id f)
      (if (s.matcher.entries[e].matched f.start).body.action = 2 ∧ (s.matcher.entries[e].matched f.start).holdoffEnd = none
        then [e] else []) = (y, opened) from fired]
  dsimp only
  rw [y.drops_bit i good e opened, body]
  simp

include placed awaiting frame ring busy in
/-- A kept frame on a RING line, without an incident that would take it. -/
theorem classification_keeps {y : State} {g : Frame} (fired : (s.hit i id rest f e).Fired y)
    (slot : y.capture.frame? id = some g) (run : (s.modLine i fun l => { l with awaiting := rest }).classifyFrame i id f
      = (y.arrive id i).keepClaim i id)
    (held : ∀ k : Fin 4, ∀ n, y.inc.table[k] = some n → n.state = .collecting → id ∈ n.frames) :
    Completes (.classification i) s fun t => s.Ends y t
      ∧ t.capture.frame? id = some { g with place := .inHistory } ∧ id ∈ t.capture.hist[i]
      ∧ t.lines[i].counters.kept = s.lines[i].counters.kept + 1
      ∧ ∀ x, x ≠ id → ∀ h, y.capture.frame? x = some h → h.pins ≠ 0 →
          ∃ h', t.capture.frame? x = some h' ∧ h'.pins = h.pins := by
  rw [State.arrive_held held] at run
  have line : y.lines[i] = { s.lines[i] with awaiting := rest } := by
    rw [fired.lines]
    exact s.modLine_same i fun l => { l with awaiting := rest }
  have unlisted : id ∉ y.capture.hist[i] := by
    obtain ⟨-, -, apart⟩ := placed.awaiting_frame awaiting frame
    rw [fired.hist, show (s.hit i id rest f e).capture.hist = s.capture.hist from s.capture.matchedBy_hist id _]
    exact (apart i).1
  have room : ¬ y.atLimit i := fun ⟨feed, _⟩ => by
    rw [line] at feed
    exact HistoryPolicy.noConfusion (ring.symm.trans feed)
  have kept := y.keepClaim_kept i slot unlisted room
  have claims := y.claims_keepClaim i id
  refine ⟨_, exec_classification awaiting frame busy run (claims.store.trans fired.store), ⟨?_, ?_, fun ns tx joins => ?_⟩,
    ?_, ?_, ?_, fun x other h found pinned => ?_⟩
  · rw [State.claimed_matcher, claims.matcher]
  · rw [State.claimed_inc, claims.inc]
  · exact State.joined_claimed i tx joins fired.time claims
  · rw [State.claimed_frame]
    exact kept.frame
  · rw [State.claimed_hist]
    exact kept.listed
  · rw [State.claimed_counters, kept.counters, line]
  · rw [State.claimed_frame]
    exact kept.pinned x other h found pinned

include awaiting frame busy in
/-- A dropped frame (R29). -/
theorem classification_drops (unpinned : f.pins = 0)
    (run : (s.modLine i fun l => { l with awaiting := rest }).classifyFrame i id f = (s.hit i id rest f e).dropClaim i id) :
    Completes (.classification i) s fun t => s.Ends (s.hit i id rest f e) t
      ∧ t.capture.frame? id = none ∧ t.capture.hist = s.capture.hist
      ∧ t.lines[i].counters.dropped = s.lines[i].counters.dropped + 1 := by
  let y := s.hit i id rest f e
  have line : y.lines[i] = { s.lines[i] with awaiting := rest } := s.modLine_same i fun l => { l with awaiting := rest }
  have slot : y.capture.frame? id = some { f with matchSet := 1#16 <<< e.val } := s.capture.matchedBy_frame id _ frame
  refine ⟨_, exec_classification awaiting frame busy run rfl, ⟨?_, ?_, fun ns tx joins => ?_⟩, ?_, ?_, ?_⟩
  · rw [State.claimed_matcher]
    rfl
  · rw [State.claimed_inc]
    rfl
  · exact State.joined_claimed i tx joins rfl (y.claims_dropClaim i id)
  · rw [State.claimed_frame]
    refine (y.capture.leave_frame_same id).trans ?_
    rw [slot, Option.bind_some]
    exact if_pos unpinned
  · rw [State.claimed_hist]
    have hist : (y.capture.leave id).hist = y.capture.hist := by rw [Capture.leave_only]
    exact hist.trans (s.capture.matchedBy_hist id _)
  · rw [State.claimed_counters]
    unfold State.dropClaim
    rw [State.modLine_same]
    change y.lines[i].counters.dropped + 1 = _
    rw [line]

end

/-! ### The incident that a hit opens (R73, R74) -/

theorem Incident.opening_frames (n : Incident) : n.opening.frames = n.frames := by
  unfold Incident.opening
  split <;> rfl

theorem State.holds_opening (s : State) (n : Incident) (trigger : Option Nat) :
    s.Holds n.opening trigger ↔ s.Holds n trigger := by
  unfold Incident.opening
  split <;> exact Iff.rfl

section
variable {i : Fin 8} {s : State} {id : Nat} {rest : List Nat} {f : Frame}
  (placed : s.framesPlaced) (awaiting : s.lines[i].awaiting = id :: rest) (frame : s.capture.frame? id = some f)

theorem State.hit_entry (s : State) (i : Fin 8) (id : Nat) (rest : List Nat) (f : Frame) (e : Fin 16) :
    (s.hit i id rest f e).matcher.entries[e] = s.matcher.entries[e].matched f.start := Matcher.setEntry_same _ e _

include placed awaiting in
theorem State.hit_placed (f : Frame) (e : Fin 16) : (s.hit i id rest f e).Placed (some (i, id)) := by
  obtain ⟨classed, -⟩ := (s.keeps_classed i awaiting).2 (s.framesPlaced_iff.mp placed)
  obtain ⟨matched, -⟩ := (State.keeps_modFrame _ (some (i, id)) id (g := fun f => { f with matchSet := 1#16 <<< e.val })
    (fun _ => rfl) (fun _ => rfl) (fun _ => rfl) fun _ => rfl).2 classed
  exact matched

include placed awaiting frame in
theorem State.hit_opened (e : Fin 16) :
    s.Opened ((s.hit i id rest f e).newIncident (frameRequest i id f e) (freshId s.inc.ids 4 s.inc.idCounter)).opening
      e .entry (some (i, f.seq)) (some id) f.start s.time.elapsed := by
  let a := s.hit i id rest f e
  let b := s.matcher.entries[e].body
  let n := a.newIncident (frameRequest i id f e) (freshId s.inc.ids 4 s.inc.idCounter)
  let w := a.capture.preWindow b.captureSet b.preCount.toNat (some id)
  have template : a.matcher.entries[e].body = b := (congrArg Entry.body (s.hit_entry i id rest f e)).trans rfl
  have fields : n = { id := freshId s.inc.ids 4 s.inc.idCounter, source := .entry, entry := e, trigger := some (i, f.seq)
                      triggerTime := f.start, captureSet := b.captureSet, preCount := b.preCount.toNat
                      postCount := b.postCount.toNat, postTime := b.postTime.toNat, state := .collecting, frames := w.1
                      budget := w.2.1, postFrames := 0, closeReason := none, preTrimmed := w.2.2, retried := false
                      cancelPending := false, serial := none
                      postTimer := if b.postTime = 0 then none
                        else some (pointAfterMs s.time.elapsed b.postTime.toNat) } := by
    simp only [w, ← template]
    rfl
  have holds : s.Holds n.opening (some id) := by
    rw [State.holds_opening, fields]
    exact State.holds_preWindow placed awaiting frame (s.matchedBy_lists id _) (s.capture.matchedBy_frame id _ frame)
      (seq := f.seq) rfl rfl rfl
  have zero : (n.postCount = 0 ∧ n.postTime = 0) ↔ (b.postCount = 0 ∧ b.postTime = 0) := by
    rw [fields]
    exact and_congr (BitVec.toNat_inj (y := 0)) (BitVec.toNat_inj (y := 0))
  change s.Opened n.opening e .entry (some (i, f.seq)) (some id) f.start s.time.elapsed
  by_cases closes : b.postCount = 0 ∧ b.postTime = 0
  · have opening : n.opening = n.closedBy .count := if_pos (zero.mpr closes)
    rw [opening] at holds ⊢
    rw [fields] at holds ⊢
    refine ⟨rfl, rfl, rfl, rfl, rfl, rfl, rfl, rfl, rfl, rfl, rfl, rfl, rfl, holds, ?_, ?_, ?_⟩
    · exact (if_pos closes).symm
    · exact (if_pos closes).symm
    · exact (if_pos closes.2).symm
  · have opening : n.opening = n := if_neg fun h => closes (zero.mp h)
    rw [opening] at holds ⊢
    rw [fields] at holds ⊢
    refine ⟨rfl, rfl, rfl, rfl, rfl, rfl, rfl, rfl, rfl, rfl, rfl, rfl, rfl, holds, ?_, ?_, rfl⟩
    · exact (if_neg closes).symm
    · exact (if_neg closes).symm

end

/-! ### The statement -/

/-- A match has been recorded for an entry, which holds off until a point. -/
def State.Matched (s t : State) (e : Fin 16) (start : Stamp) (holdoff : Option Stamp) : Prop :=
  t.matcher.entries = s.matcher.entries.set e { s.matcher.entries[e] with
    lastMatch := some start, count := s.matcher.entries[e].count + 1, holdoffEnd := holdoff }

/-- A frame has been kept in its line's history, its match set a set, pinned so often. -/
def State.KeptWith (s t : State) (i : Fin 8) (id : Nat) (f : Frame) (bit : Half) (pins : Nat) : Prop :=
  t.capture.frame? id = some { f with matchSet := bit, place := .inHistory, pins := pins }
    ∧ id ∈ t.capture.hist[i] ∧ t.lines[i].counters.kept = s.lines[i].counters.kept + 1

theorem Entry.startHoldoff_matched {x : Entry} (free : x.holdoffEnd = none) (start now : Stamp) :
    (x.matched start).startHoldoff now = { x with
      lastMatch := some start, count := x.count + 1
      holdoffEnd := if x.body.holdoff = 0 then none else some (now + BitVec.ofNat 48 (x.body.holdoff.toNat * 1000)) } := by
  unfold Entry.startHoldoff
  by_cases zero : x.body.holdoff = 0
  · rw [if_pos zero, if_pos (show (x.matched start).body.holdoff = 0 from zero), ← free]
    rfl
  · rw [if_neg zero, if_neg (show ¬ (x.matched start).body.holdoff = 0 from zero)]
    rfl

/-- The state in which a hit has opened an incident: the entry holds off, the frames it attaches are pinned, and it stands
in its slot with its notices queued. -/
structure State.HitOpens (s a y : State) (e : Fin 16) (start : Stamp) (k : Fin 4) (n : Incident) : Prop where
  fired : a.Fired y
  matched : s.Matched y e start (if s.matcher.entries[e].body.holdoff = 0 then none
    else some (s.time.elapsed + BitVec.ofNat 48 (s.matcher.entries[e].body.holdoff.toNat * 1000)))
  missed : y.matcher.missed = s.matcher.missed
  capture : y.capture = n.frames.foldl Capture.pin a.capture
  table : ∀ j : Fin 4, y.inc.table[j] = if j = k then some n.opening else s.inc.table[j]
  joins : s.Queues 2 [5, 6] → s.link.Appends y.link s.time.tod n.opening.openingNotices

/-- The fire of the entry, not in holdoff, with a free slot (R57, R61, R73). -/
theorem State.hit_fires (s : State) (i : Fin 8) (id : Nat) (rest : List Nat) (f : Frame) {e : Fin 16}
    (free : s.matcher.entries[e].holdoffEnd = none) {k : Fin 4} (slotFree : s.inc.freeSlot = some k) :
    let a := s.hit i id rest f e
    ∃ y, a.fire (frameRequest i id f) [e] = (y, true) ∧ s.HitOpens a y e f.start k
      (a.newIncident (frameRequest i id f e) (freshId s.inc.ids 4 s.inc.idCounter)) := by
  intro a
  let r := frameRequest i id f e
  let n := a.newIncident r (freshId s.inc.ids 4 s.inc.idCounter)
  obtain ⟨u, opened, opens⟩ := State.openIncident_opens (s := a) slotFree r
  change a.Opens u k n at opens
  let y : State := { u with matcher := u.matcher.setEntry e (u.matcher.entries[e].startHoldoff u.time.elapsed) }
  have entry : u.matcher.entries[e] = s.matcher.entries[e].matched f.start := by
    rw [opens.matcher]
    exact s.hit_entry i id rest f e
  have hold : u.matcher.entries[e].startHoldoff u.time.elapsed
      = (s.matcher.entries[e].matched f.start).startHoldoff s.time.elapsed := by
    rw [entry, opens.time]
    rfl
  have put : a.putRequest r = (y, true) := by
    unfold State.putRequest
    rw [opened]
    rfl
  have fire : a.fire (frameRequest i id f) [e] = (y, true) := by
    unfold State.fire
    simp only [List.foldl_cons, List.foldl_nil]
    rw [put]
    rfl
  have hist : y.capture.hist = a.capture.hist := by
    obtain ⟨slots, only⟩ := Capture.foldl_pin_only n.frames a.capture
    rw [show y.capture = _ from opens.capture, only]
  have entries : y.matcher.entries
      = (a.matcher.entries).set e ((s.matcher.entries[e].matched f.start).startHoldoff s.time.elapsed) := by
    rw [← hold, ← opens.matcher]
    rfl
  refine ⟨y, fire, ⟨opens.lines, opens.store, opens.time, hist⟩, ?_, ?_, opens.capture, fun j => ?_, opens.joins⟩
  · unfold State.Matched
    rw [entries, Entry.startHoldoff_matched free]
    exact Vector.set_set _ e.isLt
  · exact show u.matcher.missed = a.matcher.missed from congrArg Matcher.missed opens.matcher
  · rw [show y.inc.table = _ from opens.table, vector_get_set]
    rfl

section
variable {i : Fin 8} {s : State} {id : Nat} {rest : List Nat} {f : Frame} {e : Fin 16}
  (placed : s.framesPlaced) (awaiting : s.lines[i].awaiting = id :: rest) (frame : s.capture.frame? id = some f)
  (unpinned : f.pins = 0) (good : isBad f.check f.flags = false) (ring : s.lines[i].cfg.policy = .ring)
  (alone : ∀ d : Fin 16, d ≠ e → s.matcher.entries[d].body.enabled ≠ 1)
  (hits : s.matcher.matchesFrame s.matcher.entries[e].body f (s.capture.frameBytes f) s.time.tod = true)
  (busy : s.arrayIdle = false) (idle : ∀ k : Fin 4, ∀ n, s.inc.table[k] = some n → n.state ≠ .collecting)

include placed awaiting frame unpinned good ring alone hits busy idle in
/-- An entry that neither drops nor fires: MARK, or TRIGGER in holdoff (R57, R61). -/
theorem matchedEntry_marks (drops : s.matcher.entries[e].body.action ≠ 1)
    (fires : ¬ (s.matcher.entries[e].body.action = 2 ∧ s.matcher.entries[e].holdoffEnd = none)) :
    Completes (.classification i) s fun t => s.Matched t e f.start s.matcher.entries[e].holdoffEnd
      ∧ s.KeptWith t i id f (1#16 <<< e.val) 0 ∧ t.matcher.missed = s.matcher.missed ∧ t.inc = s.inc.evaluated := by
  let a := s.hit i id rest f e
  have slot : a.capture.frame? id = some { f with matchSet := 1#16 <<< e.val } := s.capture.matchedBy_frame id _ frame
  have run := State.classifyFrame_hit (i := i) (id := id) (rest := rest) (y := a) (opened := false) good alone hits
    (by rw [if_neg fires]; rfl) (by rw [s.hit_entry]; rfl)
  rw [if_neg fun h => drops h.1] at run
  obtain ⟨t, exec, ends, kept, listed, counted, -⟩ := classification_keeps placed awaiting frame ring busy
    (y := a) ⟨rfl, rfl, rfl, rfl⟩ slot run fun k n here collects => (idle k n here collects).elim
  refine ⟨t, exec, ?_, ⟨?_, listed, counted⟩, ?_, ends.inc⟩
  · exact congrArg Matcher.entries ends.matcher
  · rw [kept, unpinned]
  · exact (congrArg Matcher.missed ends.matcher).trans rfl

include awaiting frame unpinned good alone hits busy in
/-- DROP (R59). -/
theorem matchedEntry_drops (drops : s.matcher.entries[e].body.action = 1) :
    Completes (.classification i) s fun t => s.Matched t e f.start s.matcher.entries[e].holdoffEnd
      ∧ t.capture.frame? id = none ∧ t.capture.hist = s.capture.hist
      ∧ t.lines[i].counters.dropped = s.lines[i].counters.dropped + 1 ∧ t.inc = s.inc.evaluated := by
  let a := s.hit i id rest f e
  have quiet : ¬ (s.matcher.entries[e].body.action = 2 ∧ s.matcher.entries[e].holdoffEnd = none) := by
    rw [drops]
    exact fun h => absurd h.1 (by decide)
  have run := State.classifyFrame_hit (i := i) (id := id) (rest := rest) (y := a) (opened := false) good alone hits
    (by rw [if_neg quiet]; rfl) (by rw [s.hit_entry]; rfl)
  rw [if_pos ⟨drops, rfl⟩] at run
  obtain ⟨t, exec, ends, gone, hist, counted⟩ := classification_drops awaiting frame busy unpinned run
  exact ⟨t, exec, congrArg Matcher.entries ends.matcher, gone, hist, counted, ends.inc⟩

include placed awaiting frame unpinned good ring alone hits busy idle in
/-- TRIGGER without a free slot is missed (R58). -/
theorem matchedEntry_misses (fires : s.matcher.entries[e].body.action = 2) (free : s.matcher.entries[e].holdoffEnd = none)
    (full : ∀ k : Fin 4, s.inc.table[k] ≠ none) :
    Completes (.classification i) s fun t => s.Matched t e f.start none
      ∧ s.KeptWith t i id f (1#16 <<< e.val) 0 ∧ t.matcher.missed = s.matcher.missed + 1 ∧ t.inc = s.inc.evaluated
      ∧ (s.Queues 1 [4] → .triggerMissed e .entry (some (i, f.seq)) f.start (s.matcher.missed + 1) ∈ s.joined t) := by
  let a := s.hit i id rest f e
  let r := frameRequest i id f e
  let y := a.missTrigger r
  have slot : y.capture.frame? id = some { f with matchSet := 1#16 <<< e.val } := s.capture.matchedBy_frame id _ frame
  have fired : a.fire (frameRequest i id f) [e] = (y, false) := by
    have missed : a.putRequest r = (y, false) := by
      unfold State.putRequest
      rw [State.openIncident_full (s := a) full r]
    unfold State.fire
    simp only [List.foldl_cons, List.foldl_nil]
    rw [missed]
    rfl
  have run := State.classifyFrame_hit (i := i) (id := id) (rest := rest) (y := y) (opened := false) good alone hits
    (by rw [if_pos ⟨fires, free⟩]; exact fired) ((congrArg Entry.body (s.hit_entry i id rest f e)).trans rfl)
  rw [if_neg fun h => absurd (fires.symm.trans h.1) (by decide)] at run
  obtain ⟨t, exec, ends, kept, listed, counted, -⟩ := classification_keeps placed awaiting frame ring busy
    (y := y) ⟨rfl, rfl, rfl, rfl⟩ slot run fun k n here collects => (idle k n here collects).elim
  refine ⟨t, exec, ?_, ⟨?_, listed, counted⟩, ?_, ends.inc, fun ⟨tx, room, kinds⟩ => ?_⟩
  · unfold State.Matched
    rw [← free]
    exact congrArg Matcher.entries ends.matcher
  · rw [kept, unpinned]
  · exact (congrArg Matcher.missed ends.matcher).trans rfl
  · exact (ends.joins _ tx (Link.notify_appends _ tx (kinds 4 List.mem_cons_self) (by omega))).subset List.mem_cons_self

include placed awaiting frame unpinned good ring alone hits busy idle in
/-- TRIGGER with a free slot opens an incident there (R57, R73, R74). -/
theorem matchedEntry_opens (fires : s.matcher.entries[e].body.action = 2) (free : s.matcher.entries[e].holdoffEnd = none)
    {k : Fin 4} (slotFree : s.inc.freeSlot = some k) :
    Completes (.classification i) s fun t =>
      s.Matched t e f.start (if s.matcher.entries[e].body.holdoff = 0 then none
          else some (s.time.elapsed + BitVec.ofNat 48 (s.matcher.entries[e].body.holdoff.toNat * 1000)))
        ∧ s.KeptWith t i id f (1#16 <<< e.val) 1 ∧ t.matcher.missed = s.matcher.missed
        ∧ (∃ n, t.inc.table[k] = some n ∧ s.Opened n e .entry (some (i, f.seq)) (some id) f.start s.time.elapsed
            ∧ (f.length ≤ 1024 → n.budget ≤ 32624)
            ∧ (∀ x ∈ n.frames, x ≠ id → ∃ g h, s.capture.frame? x = some g ∧ t.capture.frame? x = some h
                ∧ h.pins = g.pins + 1)
            ∧ (s.Queues 2 [5, 6] → n.openingNotices <+: s.joined t))
        ∧ ∀ j : Fin 4, j ≠ k → t.inc.table[j] = s.inc.table[j] := by
  let a := s.hit i id rest f e
  let r := frameRequest i id f e
  let n := a.newIncident r (freshId s.inc.ids 4 s.inc.idCounter)
  obtain ⟨y, fire, opens⟩ := s.hit_fires i id rest f free slotFree
  change s.HitOpens a y e f.start k n at opens
  have whole := State.hit_opened placed awaiting frame e
  change s.Opened n.opening _ _ _ _ _ _ at whole
  obtain ⟨-, -, -, -, -, -, -, -, -, -, -, -, -, holds, -⟩ := whole
  have body : y.matcher.entries[e].body = s.matcher.entries[e].body := by
    rw [show y.matcher.entries = _ from opens.matched, vector_get_set, if_pos rfl]
  have run := State.classifyFrame_hit (i := i) (id := id) (rest := rest) (y := y) (opened := true) good alone hits
    (by rw [if_pos ⟨fires, free⟩]; exact fire) body
  rw [if_neg fun h => absurd (fires.symm.trans h.1) (by decide)] at run
  obtain ⟨once, listed⟩ := a.newIncident_frames (x := some (i, id)) r (freshId s.inc.ids 4 s.inc.idCounter)
    (fun b hb => ⟨i, by rw [← Option.some.inj hb]⟩) (State.hit_placed placed awaiting f e)
  change n.frames.Nodup at once
  have pins (x : Nat) (hx : x ∈ n.frames) : y.capture.frame? x = (a.capture.frame? x).map Frame.pinned := by
    rw [opens.capture, Capture.foldl_pin_frame once, if_pos hx]
  have holdsId : id ∈ n.frames := by
    obtain ⟨left, taken, -, -, held, -⟩ := (s.holds_opening n _).mp holds
    exact held.symm.subset (List.mem_append_right taken List.mem_cons_self)
  have slot : y.capture.frame? id = some { f with matchSet := 1#16 <<< e.val, pins := 1 } := by
    rw [pins id holdsId, show a.capture.frame? id = _ from s.capture.matchedBy_frame id _ frame, Option.map_some,
      Frame.pinned, unpinned]
  obtain ⟨t, exec, ends, kept, inHist, counted, others⟩ := classification_keeps placed awaiting frame ring busy
    (y := y) opens.fired slot run fun j m here collects => by
      rw [opens.table j] at here
      split at here
      next =>
        obtain rfl := Option.some.inj here
        rw [Incident.opening_frames]
        exact holdsId
      next => exact (idle j m here collects).elim
  have inTable (j : Fin 4) : t.inc.table[j] = if j = k then some n.opening else s.inc.table[j] := by
    rw [ends.inc]
    exact opens.table j
  refine ⟨t, exec, (congrArg Matcher.entries ends.matcher).trans opens.matched, ⟨kept, inHist, counted⟩,
    (congrArg Matcher.missed ends.matcher).trans opens.missed, ⟨n.opening, (inTable k).trans (if_pos rfl),
      State.hit_opened placed awaiting frame e, holds.budget_le frame, fun x hx other => ?_,
      fun q => ends.joins _ q.1 (opens.joins q)⟩, fun j other => (inTable j).trans (if_neg other)⟩
  rw [Incident.opening_frames] at hx
  obtain ⟨j, hj⟩ | trigger := listed x hx
  · have lists := s.matchedBy_lists id (1#16 <<< e.val)
    have stands : x ∈ s.capture.handed[j] ++ s.capture.hist[j] := by
      rw [← lists.hist, ← lists.handed]
      exact hj
    obtain ⟨g, found, -⟩ := placed.listed_frame stands
    have pinned := pins x hx
    rw [show a.capture.frame? x = _ from s.capture.matchedBy_other id _ x other, found] at pinned
    obtain ⟨h, last, same⟩ := others x other _ pinned (Nat.succ_ne_zero _)
    exact ⟨g, h, found, last, same⟩
  · exact (other (Option.some.inj trigger).symm).elim

end

/-- Settles O43: MARK, DROP, TRIGGER in holdoff, without a free slot, and with one. -/
theorem matchingEntryActs : Obligations.MatchingEntryActs := by
  intro i s id rest f e l x bit matched keptWith placed awaiting frame unpinned good ring alone hits busy idle
  refine ⟨fun mark => ?_, fun drop => ?_, fun trigger holdoff => ?_, fun trigger free full => ?_,
    fun k trigger free slot => ?_⟩
  · have notDrop : x.body.action ≠ 1 := by rw [mark]; decide
    have quiet : ¬ (x.body.action = 2 ∧ x.holdoffEnd = none) := by
      rw [mark]
      exact fun h => absurd h.1 (by decide)
    obtain ⟨t, run, recorded, kept, -, inc⟩ := matchedEntry_marks placed awaiting frame unpinned good ring alone hits busy
      idle notDrop quiet
    exact ⟨t, run, recorded, kept, inc⟩
  · exact matchedEntry_drops awaiting frame unpinned good alone hits busy drop
  · have notDrop : x.body.action ≠ 1 := by rw [trigger]; decide
    exact matchedEntry_marks placed awaiting frame unpinned good ring alone hits busy idle notDrop fun h => holdoff h.2
  · exact matchedEntry_misses placed awaiting frame unpinned good ring alone hits busy idle trigger free full
  · exact matchedEntry_opens placed awaiting frame unpinned good ring alone hits busy idle trigger free slot

end Sys2Proof.Machine
end

section
/-! PROOFS. The match table: reset, WRITE_ENTRY, READ_ENTRY and CLEAR_ENTRY (R65 to R68, R70), and the expiries of holdoffs
and post timers (R61, R80, R84). -/

namespace Sys2Proof.Machine

/-! ### The match unit after either reset (R70) -/

theorem resets_matcher (straps : BitVec 2) (s t : State)
    (h : exec (.hardReset straps) s = .next t
      ∨ (s.link.restartSending = true ∧ exec .restartTakesEffect s = .next t)) : t.matcher = .reset := by
  obtain h | ⟨sending, h⟩ := h
  · obtain rfl : s.hardReset straps = t := Host.Outcome.next.inj h
    rfl
  · rw [exec_restart_row _ s (.inl rfl) sending] at h
    obtain rfl : s.restart = t := Host.Outcome.next.inj h
    rfl

theorem Matcher.reset_entry (e : Fin 16) : Matcher.reset.entries[e] = .fresh unusedDef := by simp [Matcher.reset]

/-- Settles O14: the match unit by its own reset, frames and notices by those of the lines and the link. -/
theorem resetsEmptyTheMatchUnit : Obligations.ResetsEmptyTheMatchUnit := by
  intro straps s t h
  obtain ⟨lines, -, straps', link⟩ := resets_blocks straps s t h
  rw [resets_matcher straps s t h, link]
  refine ⟨fun e => ?_, rfl, rfl, fun i => ?_, rfl, rfl⟩
  · rw [Matcher.reset_entry]
    exact ⟨rfl, rfl, rfl, rfl⟩
  · simp only [lines, State.reset_line]
    rfl

/-! ### Requests that change the state outside the link -/

/-- A body that leaves a state whatever the link, and answers it with data. -/
theorem State.serve_changes (s r : State) (row : Instr) (body : State → State × Answer) (data : List Byte)
    (he : exec row s = .next (s.serve row body)) (h : s.Executing row)
    (hb : ∀ l k, body (s.relinked l k) = (r.relinked l k, .ok data)) :
    Completes row s fun t => t = r.relinked t.link t.freeKey ∧ s.Answered t row .ok data := by
  rw [s.serve_in_hand row body h,
    s.answer_congr (reqOf row) false body (fun u => (r.relinked u.link u.freeKey, .ok data)) hb] at he
  obtain ⟨u, -, only, answered⟩ := s.answer_spec row (fun u => (r.relinked u.link u.freeKey, .ok data)) fun _ => rfl
  rw [replyTo_ok] at answered
  refine ⟨_, he, ?_, answered⟩
  rw [only]
  rfl

/-! ### WRITE_ENTRY (R65) -/

theorem writeEntryBody_ok {entry : Byte} {e : Fin 16} (named : entryOf entry = some e) {body : EntryDef}
    (ok : body.ok e = true) (s : State) : writeEntryBody entry body s = (s.writeEntry e body, .ok []) := by
  unfold writeEntryBody
  rw [named]
  exact if_pos ok

theorem writeEntryBody_refused {entry : Byte} {body : EntryDef}
    (bad : ∀ e, entryOf entry = some e → body.ok e = false) (s : State) :
    writeEntryBody entry body s = (s, .bare .badArgument) := by
  unfold writeEntryBody
  split
  next => rfl
  next e named => exact if_neg (by rw [bad e named]; exact Bool.false_ne_true)

/-- Settles O38: the body on an acceptable definition, and the refusal. -/
theorem writeEntryStartsAfresh : Obligations.WriteEntryStartsAfresh := by
  intro tag entry body s h
  refine ⟨fun e named ok => ?_, fun bad => ?_⟩
  · exact s.serve_changes (s.writeEntry e body) _ _ _ rfl h fun l k => writeEntryBody_ok named ok (s.relinked l k)
  · exact s.serve_refuses _ _ _ rfl h fun l k => writeEntryBody_refused bad (s.relinked l k)

/-! ### READ_ENTRY (R67) -/

theorem readEntryBody_noEntry {entry : Byte} (h : entryOf entry = none) (s : State) :
    readEntryBody entry s = (s, .bare .badArgument) := by
  unfold readEntryBody
  rw [h]

theorem readEntryBody_entry {entry : Byte} {e : Fin 16} (h : entryOf entry = some e) (s : State) :
    readEntryBody entry s = (s, .ok (s.matcher.entries[e].bytes s.time.elapsed)) := by
  unfold readEntryBody
  rw [h]

/-- The reply data of READ_ENTRY in the terms of the statement: a time is its six bytes behind the presence byte, and an
absent value is zeros (R189). -/
theorem Entry.bytes_eq (x : Entry) (now : Stamp) : x.bytes now
    = (if x.body.afterOn = 0 then { x.body with afterEntry := 0, afterWindow := 0 } else x.body).bytes
      ++ (match x.lastMatch with | some m => 1 :: encLE 6 m | none => [0, 0, 0, 0, 0, 0, 0])
      ++ (match x.holdoffEnd with | some p => 1 :: u16 (msLeft now p) | none => [0, 0, 0])
      ++ encLE 4 x.count := by
  have time : optTime x.lastMatch
      = (match x.lastMatch with | some m => 1 :: encLE 6 m | none => [0, 0, 0, 0, 0, 0, 0]) := by
    cases x.lastMatch <;> rfl
  unfold Entry.bytes
  rw [time]
  rfl

/-- Settles O39: the refusal, and the reply data of an entry. -/
theorem readEntryReportsTheEntry : Obligations.ReadEntryReportsTheEntry := by
  intro tag entry s h
  cases named : entryOf entry with
  | none => exact s.serve_refuses _ _ _ rfl h fun l k => readEntryBody_noEntry named (s.relinked l k)
  | some e =>
    obtain ⟨only, answered⟩ := s.serve_unchanged (.readEntry tag entry) (readEntryBody entry)
      (.ok (s.matcher.entries[e].bytes s.time.elapsed)) h fun l k => readEntryBody_entry named (s.relinked l k)
    rw [replyTo_ok, Entry.bytes_eq] at answered
    exact ⟨_, rfl, only, answered⟩

/-! ### CLEAR_ENTRY (R68) -/

theorem entryOf_eq_some {b : Byte} (h : b.toNat < 16) : entryOf b = some ⟨b.toNat, h⟩ := dif_pos h

theorem clearEntryBody_noEntry {entry : Byte} (h : entryOf entry = none) (s : State) :
    clearEntryBody entry s = (s, .bare .badArgument) := by
  unfold clearEntryBody
  rw [h]

theorem clearEntryBody_entry {entry : Byte} {e : Fin 16} (h : entryOf entry = some e) (s : State) :
    clearEntryBody entry s = (s.writeEntry e unusedDef, .ok []) := by
  unfold clearEntryBody
  rw [h]

/-- Settles O40: the refusal, and the UNUSED definition. -/
theorem clearEntryMakesItUnused : Obligations.ClearEntryMakesItUnused := by
  intro tag entry s h
  refine ⟨fun high => ?_, fun low => ?_⟩
  · exact s.serve_refuses _ _ _ rfl h fun l k => clearEntryBody_noEntry (entryOf_eq_none high) (s.relinked l k)
  · exact s.serve_changes (s.writeEntry ⟨entry.toNat, low⟩ unusedDef) _ _ _ rfl h fun l k =>
      clearEntryBody_entry (entryOf_eq_some low) (s.relinked l k)

/-! ### The end of an event that moves no line and frees no page -/

theorem State.NothingToGrant.conclude {s : State} (h : s.NothingToGrant) (old : State) :
    (State.conclude old s).NothingToGrant := by
  unfold State.NothingToGrant State.arrayIdle
  rw [State.conclude_store, State.conclude_inc]
  exact h

/-- Such an event with nothing to grant re-evaluates EVT_OUT alone (R93, R107). -/
theorem State.settleEvent_quiet {s x : State} (nothing : x.NothingToGrant) (lines : x.lines = s.lines)
    (free : x.capture.free = s.capture.free) (pressure : x.capture.pressure = s.capture.pressure) :
    State.settleEvent s x = { x with inc := x.inc.evaluated } := by
  refine (State.arbitrate_nothing (nothing.conclude s)).trans (State.conclude_quiet s x (fun _ => ?_) ?_)
  · rw [lines]
  · exact Capture.calmSince_of_free pressure free

/-! ### HOLDOFF_EXPIRY and POST_TIMER_EXPIRY (R61, R80, R84) -/

theorem exec_holdoffExpiry {s : State} {e : Fin 16} {p : Stamp} (holds : s.matcher.entries[e].holdoffEnd = some p) :
    exec (.holdoffExpiry e) s = .next { s with
      time := s.time.advanceTo p
      matcher := s.matcher.setEntry e { s.matcher.entries[e] with holdoffEnd := none } } := by
  change execHoldoffExpiry e s = _
  unfold execHoldoffExpiry
  rw [holds]
  rfl

theorem exec_postTimerExpiry {s : State} {k : Fin 4} {n : Incident} {p : Stamp} (here : s.inc.table[k] = some n)
    (timer : n.postTimer = some p) : exec (.postTimerExpiry k) s
      = .next (State.settleEvent (s.advanceTo p) ((s.advanceTo p).closeIncident k .time)) := by
  change execPostTimerExpiry k s = _
  unfold execPostTimerExpiry
  rw [here, Option.bind_some, timer]

/-- Settles O46: the holdoff end alone, and the closing with an array that takes no grant. -/
theorem expiriesEndHoldoffsAndCloseIncidents : Obligations.ExpiriesEndHoldoffsAndCloseIncidents := by
  refine ⟨fun e s p holds => exec_holdoffExpiry holds, fun k s n p here timer busy => ?_⟩
  let u := s.advanceTo p
  let v : State := { u with
    inc := { u.inc with table := u.inc.table.set k (some (n.closedBy .time)), queue := u.inc.queue ++ [k] }
    link := u.link.notify u.time.tod (n.closedNotice .time) }
  have closed : u.closeIncident k .time = v := State.closeIncident_eq (s := u) here .time
  have settled : State.settleEvent u v = { v with inc := v.inc.evaluated } :=
    State.settleEvent_quiet (.inl busy) rfl rfl rfl
  exact ⟨_, (exec_postTimerExpiry here timer).trans (congrArg _ ((congrArg _ closed).trans settled)), rfl, rfl⟩

end Sys2Proof.Machine
end

section
/-! PROOFS. The conditions of a match entry, each in its own terms (R49 to R53). -/

namespace Sys2Proof.Machine

/-! ### Status and kind (R49) -/

/-- The status condition, for the codes that WRITE_ENTRY admits (R66). -/
theorem statusHolds_iff {cond : Byte} (h : cond.toNat ≤ 2) (bad : Bool) :
    statusHolds cond bad = true ↔ (cond = 1 → bad = false) ∧ (cond = 2 → bad = true) := by
  obtain any | good | ill : cond.toNat = 0 ∨ cond.toNat = 1 ∨ cond.toNat = 2 := by omega
  · obtain rfl : cond = 0 := BitVec.eq_of_toNat_eq any
    simp [statusHolds]
  · obtain rfl : cond = 1 := BitVec.eq_of_toNat_eq good
    simp [statusHolds]
  · obtain rfl : cond = 2 := BitVec.eq_of_toNat_eq ill
    simp [statusHolds]

theorem EntryDef.testsFrames_iff (e : EntryDef) : e.testsFrames = true ↔ e.kind = 1 ∨ e.kind = 2 := by
  simp [EntryDef.testsFrames, kindDirect, kindDigest]

/-! ### The comparisons (R51, R52) -/

theorem directAgrees_iff (e : EntryDef) (bytes : List Byte) (j : Nat) : directAgrees e bytes j = true ↔
    byteAt bytes (e.offset.toNat + j) &&& e.byteMask.extractLsb' (8 * j) 8
      = e.pattern.extractLsb' (8 * j) 8 &&& e.byteMask.extractLsb' (8 * j) 8 := beq_iff_eq

/-- Every masked byte agrees; or, with the sense inverted, one does not (R51). -/
theorem directHolds_iff {e : EntryDef} (h : e.sense.toNat ≤ 1) (bytes : List Byte) : directHolds e bytes = true ↔
    e.offset.toNat + e.width.toNat ≤ bytes.length
      ∧ (e.sense = 0 → ∀ j < e.width.toNat, directAgrees e bytes j = true)
      ∧ (e.sense = 1 → ∃ j < e.width.toNat, ¬ directAgrees e bytes j = true) := by
  unfold directHolds
  rw [Bool.and_eq_true, decide_eq_true_eq]
  refine and_congr_right fun _ => ?_
  obtain plain | inverted : e.sense.toNat = 0 ∨ e.sense.toNat = 1 := by omega
  · have sense : e.sense = 0 := BitVec.eq_of_toNat_eq plain
    simp [sense]
  · have sense : e.sense = 1 := BitVec.eq_of_toNat_eq inverted
    simp [sense]

theorem digestHolds_iff (e : EntryDef) (bytes : List Byte) : digestHolds e bytes = true ↔
    e.offset.toNat + e.span.toNat ≤ bytes.length ∧ crc16 (digestSelected e bytes) = e.digest := by
  unfold digestHolds
  rw [Bool.and_eq_true, decide_eq_true_eq, beq_iff_eq]

/-- The comparison of the entry's own kind. -/
theorem comparison_iff {e : EntryDef} (kind : e.kind = 1 ∨ e.kind = 2) (bytes : List Byte) :
    (if e.kind = kindDirect then directHolds e bytes else digestHolds e bytes) = true
      ↔ (e.kind = 1 → directHolds e bytes = true) ∧ (e.kind = 2 → digestHolds e bytes = true) := by
  obtain direct | digest := kind
  · simp [direct, kindDirect]
  · simp [digest, kindDirect]

/-! ### The after-condition (R53) -/

theorem Matcher.afterHolds_iff (m : Matcher) (e : EntryDef) (ref : Stamp) : m.afterHolds e ref = true ↔
    (e.afterOn ≠ 0 → ∃ r t, entryOf e.afterEntry = some r ∧ m.entries[r].lastMatch = some t
      ∧ t.toNat ≤ ref.toNat ∧ ref.toNat ≤ t.toNat + e.afterWindow.toNat * 1000) := by
  unfold Matcher.afterHolds
  rw [Bool.or_eq_true, beq_iff_eq, ← or_iff_not_imp_left]
  refine or_congr_right ?_
  cases named : entryOf e.afterEntry with
  | none => simp
  | some r =>
    dsimp only
    cases last : m.entries[r].lastMatch with
    | none =>
      refine iff_of_false Bool.false_ne_true ?_
      rintro ⟨r', t, same, here, -⟩
      obtain rfl := Option.some.inj same
      exact Option.some_ne_none t (here.symm.trans last)
    | some t =>
      simp only [Bool.and_eq_true, decide_eq_true_eq, Option.some.injEq]
      constructor
      · rintro ⟨before, window⟩
        exact ⟨r, t, rfl, last, before, by omega⟩
      · rintro ⟨r', t', rfl, last', before, window⟩
        obtain rfl := Option.some.inj (last.symm.trans last')
        exact ⟨before, by omega⟩

/-! ### The statement -/

theorem Capture.frameBytes_length (c : Capture) (f : Frame) : (c.frameBytes f).length = f.length := by
  simp [Capture.frameBytes]

/-- All conditions of a test against a frame, by their functions. -/
theorem Matcher.matchesFrame_iff (m : Matcher) (e : EntryDef) (f : Frame) (bytes : List Byte) (ref : Stamp) :
    m.matchesFrame e f bytes ref = true ↔ e.testsFrames = true ∧ e.enabled = 1 ∧ inSet e.lineSet f.line.val = true
      ∧ statusHolds e.status (isBad f.check f.flags) = true ∧ (e.lenMin.toNat ≤ f.length ∧ f.length ≤ e.lenMax.toNat)
      ∧ (if e.kind = kindDirect then directHolds e bytes else digestHolds e bytes) = true
      ∧ m.afterHolds e ref = true := by
  simp only [Matcher.matchesFrame, Bool.and_eq_true, beq_iff_eq, decide_eq_true_eq, and_assoc]

/-- Settles O41: the conditions one by one, the stored bytes as many as the frame's length. -/
theorem entryMatchesExactlyWhenEveryConditionHolds : Obligations.EntryMatchesExactlyWhenEveryConditionHolds := by
  intro m e c f ref status sense byte agrees selected
  have direct := directHolds_iff sense (c.frameBytes f)
  have digest := digestHolds_iff e (c.frameBytes f)
  simp only [directAgrees_iff, Capture.frameBytes_length] at direct digest
  rw [Matcher.matchesFrame_iff, EntryDef.testsFrames_iff, statusHolds_iff status, Matcher.afterHolds_iff]
  refine and_congr_right fun kind => ?_
  rw [comparison_iff kind, direct, digest]
  simp only [and_assoc]
  exact Iff.rfl

end Sys2Proof.Machine
end

section
/-! PROOFS. TRIG_IN: the spacing of its edges (R62), and what the edge accepted for one EXTERNAL entry opens, or misses (R57,
R58, R61, R63, R73, R75). -/

namespace Sys2Proof.Machine

/-! ### The rising edge (R62) -/

theorem Matcher.spaced_first {m : Matcher} (h : m.lastAccepted = none) (now : Stamp) : m.spaced now = true := by
  unfold Matcher.spaced
  rw [h]

theorem Matcher.spaced_after {m : Matcher} {p : Stamp} (h : m.lastAccepted = some p) (now : Stamp) :
    m.spaced now = decide (10 ≤ (now - p).toNat) := by
  unfold Matcher.spaced
  rw [h]
  rfl

theorem exec_trigInRisingEdge (s : State) : exec .trigInRisingEdge s = .next { s with
    matcher := { s.matcher with
      risingEdge := if s.matcher.spaced s.time.elapsed then some ⟨s.time.tod, s.time.elapsed⟩ else none } } := rfl

/-! ### One EXTERNAL entry matches an edge (R63) -/

theorem Matcher.matchesEdge_disabled (m : Matcher) {e : EntryDef} (h : e.enabled ≠ 1) (ref : Stamp) :
    m.matchesEdge e ref = false := by
  have off : (e.enabled == 1) = false := beq_eq_false_iff_ne.mpr h
  simp only [Matcher.matchesEdge, off, Bool.and_false, Bool.false_and]

theorem Matcher.matchesEdge_external (m : Matcher) {e : EntryDef} (kind : e.kind = 3) (enabled : e.enabled = 1)
    (free : e.afterOn = 0) (ref : Stamp) : m.matchesEdge e ref = true := by
  simp [Matcher.matchesEdge, Matcher.afterHolds, kindExternal, kind, enabled, free]

/-- The clocks at the end of an edge's high time (log 3), the edge accepted and matched by one entry. -/
def State.edged (s : State) (g : Edge) (e : Fin 16) : State :=
  { s.advanceTo (pointAfterUs g.elapsed 1) with
    matcher := Matcher.setEntry { s.matcher with lastAccepted := some g.elapsed, risingEdge := none } e
      (s.matcher.entries[e].matched g.time) }

theorem State.edged_entry (s : State) (g : Edge) (e : Fin 16) :
    (s.edged g e).matcher.entries[e] = s.matcher.entries[e].matched g.time := Matcher.setEntry_same _ e _

theorem State.edged_other (s : State) (g : Edge) (e d : Fin 16) (h : d ≠ e) :
    (s.edged g e).matcher.entries[d] = s.matcher.entries[d] := Matcher.setEntry_other _ e d h _

theorem State.fire_one (s : State) (request : Fin 16 → OpenRequest) (e : Fin 16) :
    s.fire request [e] = s.putRequest (request e) := by
  unfold State.fire
  simp only [List.foldl_cons, List.foldl_nil, Bool.false_or]

section
variable {s : State} {g : Edge} {e : Fin 16} (edge : s.matcher.risingEdge = some g)
  (kind : s.matcher.entries[e].body.kind = 3) (enabled : s.matcher.entries[e].body.enabled = 1)
  (afterOn : s.matcher.entries[e].body.afterOn = 0) (action : s.matcher.entries[e].body.action = 2)
  (free : s.matcher.entries[e].holdoffEnd = none)
  (alone : ∀ d : Fin 16, d ≠ e → s.matcher.entries[d].body.enabled ≠ 1)

include edge kind enabled afterOn action free alone in
/-- The one EXTERNAL entry puts its request (R57, R63). -/
theorem exec_trigInEdgeAccepted : exec .trigInEdgeAccepted s
    = .next (State.settleEvent (s.advanceTo (pointAfterUs g.elapsed 1))
        ((s.edged g e).putRequest (edgeRequest g.time e)).1) := by
  let m : Matcher := { s.matcher with lastAccepted := some g.elapsed, risingEdge := none }
  have evaluated : m.evaluate (fun m d => m.matchesEdge d g.time) g.time
      = (m.setEntry e (m.entries[e].matched g.time), 1#16 <<< e.val) :=
    m.evaluate_one _ _ e (m.matchesEdge_external kind enabled afterOn g.time) fun u d other =>
      u.matchesEdge_disabled (alone d other) g.time
  have fires : (m.setEntry e (m.entries[e].matched g.time)).firing (1#16 <<< e.val) = [e] := by
    rw [Matcher.firing_bit, Matcher.setEntry_same]
    exact if_pos ⟨action, free⟩
  have fired := State.fire_one (s.edged g e) (edgeRequest g.time) e
  change execTrigInEdgeAccepted s = _
  unfold execTrigInEdgeAccepted
  rw [edge]
  dsimp only
  rw [show (s.advanceTo (pointAfterUs g.elapsed 1)).matcher = s.matcher from rfl, evaluated, fires, ← fired]
  rfl

end

/-! ### A request without a free slot (R58) -/

theorem State.putRequest_full {s : State} (full : ∀ k : Fin 4, s.inc.table[k] ≠ none) (r : OpenRequest) :
    s.putRequest r = (s.missTrigger r, false) := by
  unfold State.putRequest
  rw [State.openIncident_full full]

/-! ### An opening without a trigger frame (R73, R75) -/

theorem State.sameLists_refl (s : State) : s.SameLists s.capture := ⟨fun _ => rfl, rfl, rfl⟩

/-- The candidates of a pre-window without a trigger frame are those of the statements (R75). -/
theorem State.preIds_untriggered (s : State) {n : Incident} (untriggered : n.trigger = none) :
    s.capture.preIds n.captureSet n.preCount none = s.preCandidates n := by
  unfold Capture.preIds State.preCandidates
  rw [untriggered]
  rfl

/-- What an opening without a trigger frame attaches (R75 to R77). -/
theorem State.holds_untriggered {s : State} {n : Incident} (placed : s.framesPlaced) (untriggered : n.trigger = none)
    (window : s.capture.preWindow n.captureSet n.preCount none = (n.frames, n.budget, n.preTrimmed)) :
    s.Holds n none := by
  obtain ⟨left, taken, split, run, within, beyond⟩ := s.capture.preWindow_spec n.captureSet n.preCount none
  obtain ⟨frames, rest⟩ := Prod.mk.inj (window.symm.trans run)
  obtain ⟨budget, trimmed⟩ := Prod.mk.inj rest
  dsimp only at frames
  rw [← budget] at within
  simp only [← budget] at beyond
  change s.capture.ordered (s.capture.preIds n.captureSet n.preCount none) = _ at split
  have perm := s.capture.ordered_perm (s.capture.preIds n.captureSet n.preCount none)
  have sorted := State.ordered_precedes (State.preIds_comesBefore placed s.sameLists_refl n.captureSet n.preCount none)
  rw [split] at perm sorted
  rw [s.preIds_untriggered untriggered] at perm
  refine ⟨left, taken, perm, sorted, ?_, ?_, ?_, ?_, within, beyond⟩
  · rw [frames, Option.toList_none, List.append_nil]
  · rw [frames]
    exact (List.pairwise_append.mp sorted).2.1
  · rw [budget, frames]
    exact Nat.zero_add _
  · rw [trimmed]
    exact decide_eq_true_iff

theorem State.Holds.untriggered_budget_le {s : State} {n : Incident} (h : s.Holds n none) : n.budget ≤ 32624 := by
  obtain ⟨left, taken, -, -, held, -, budget, -, within, -⟩ := h
  by_cases empty : taken = []
  · subst empty
    rw [budget, List.perm_nil.mp held]
    exact Nat.zero_le _
  · exact within empty

theorem State.Opened.holds {s : State} {n : Incident} {e : Fin 16} {source : Source} {trigger : Option (Fin 8 × Half)}
    {frame : Option Nat} {time now : Stamp} (h : s.Opened n e source trigger frame time now) : s.Holds n frame := by
  obtain ⟨-, -, -, -, -, -, -, -, -, -, -, -, -, holds, -⟩ := h
  exact holds

/-- The incident that a request without a trigger frame opens, from a state with the same frames and template. -/
theorem State.untriggered_opened {s a : State} (placed : s.framesPlaced) (source : Source) (e : Fin 16) (time : Stamp)
    (capture : a.capture = s.capture) (template : a.matcher.entries[e].body = s.matcher.entries[e].body) :
    s.Opened (a.newIncident ⟨source, e, none, none, time⟩ (freshId s.inc.ids 4 s.inc.idCounter)).opening e source none none
      time a.time.elapsed := by
  let b := s.matcher.entries[e].body
  let n := a.newIncident ⟨source, e, none, none, time⟩ (freshId s.inc.ids 4 s.inc.idCounter)
  let w := s.capture.preWindow b.captureSet b.preCount.toNat none
  have fields : n = { id := freshId s.inc.ids 4 s.inc.idCounter, source := source, entry := e, trigger := none
                      triggerTime := time, captureSet := b.captureSet, preCount := b.preCount.toNat
                      postCount := b.postCount.toNat, postTime := b.postTime.toNat, state := .collecting, frames := w.1
                      budget := w.2.1, postFrames := 0, closeReason := none, preTrimmed := w.2.2, retried := false
                      cancelPending := false, serial := none
                      postTimer := if b.postTime = 0 then none
                        else some (pointAfterMs a.time.elapsed b.postTime.toNat) } := by
    simp only [w, b, ← template, ← capture]
    rfl
  have holds : s.Holds n.opening none := by
    rw [State.holds_opening, fields]
    exact State.holds_untriggered placed rfl rfl
  have zero : (n.postCount = 0 ∧ n.postTime = 0) ↔ (b.postCount = 0 ∧ b.postTime = 0) := by
    rw [fields]
    exact and_congr (BitVec.toNat_inj (y := 0)) (BitVec.toNat_inj (y := 0))
  change s.Opened n.opening e source none none time a.time.elapsed
  by_cases closes : b.postCount = 0 ∧ b.postTime = 0
  · rw [show n.opening = n.closedBy .count from if_pos (zero.mpr closes), fields] at holds ⊢
    exact ⟨rfl, rfl, rfl, rfl, rfl, rfl, rfl, rfl, rfl, rfl, rfl, rfl, rfl, holds, (if_pos closes).symm,
      (if_pos closes).symm, (if_pos closes.2).symm⟩
  · rw [show n.opening = n from if_neg fun h => closes (zero.mp h), fields] at holds ⊢
    exact ⟨rfl, rfl, rfl, rfl, rfl, rfl, rfl, rfl, rfl, rfl, rfl, rfl, rfl, holds, (if_neg closes).symm,
      (if_neg closes).symm, rfl⟩

/-! ### An opening that stays open (R73, R93) -/

theorem Incidents.evaluated_collecting {u : Incidents} {k : Fin 4} {n : Incident} (here : u.table[k] = some n)
    (collects : n.state = .collecting) : u.evaluated.evtOut = true := by
  have member : k ∈ allSlots.filter fun k => (u.table[k]).any fun i => i.state == .collecting :=
    List.mem_filter.mpr ⟨List.mem_finRange k, by rw [here, Option.any_some, collects]; rfl⟩
  exact decide_eq_true (List.length_pos_of_mem member)

/-- The state in which an incident has been opened in a slot for a request, and its entry holds off (R61, R73). -/
def State.opening (s : State) (r : OpenRequest) (k : Fin 4) (n : Incident) : State :=
  { s with
    capture := n.frames.foldl Capture.pin s.capture
    matcher := s.matcher.setEntry r.entry (s.matcher.entries[r.entry].startHoldoff s.time.elapsed)
    inc := { s.inc with table := s.inc.table.set k (some n), opened := s.inc.opened ++ [k], idCounter := nextId n.id }
    link := s.link.notify s.time.tod
      (.incidentOpened n.id r.source r.entry r.trigger r.time n.captureSet n.frames.length n.budget n.preTrimmed) }

/-- A request for a post-window with a time, with a free slot. -/
theorem State.putRequest_collects {s : State} {k : Fin 4} (slot : s.inc.freeSlot = some k) (r : OpenRequest)
    (timed : s.matcher.entries[r.entry].body.postTime ≠ 0) :
    s.putRequest r = (s.opening r k (s.newIncident r (freshId s.inc.ids 4 s.inc.idCounter)), true) := by
  have stays : ¬ ((s.newIncident r (freshId s.inc.ids 4 s.inc.idCounter)).postCount = 0
      ∧ (s.newIncident r (freshId s.inc.ids 4 s.inc.idCounter)).postTime = 0) := fun ⟨_, zero⟩ =>
    timed (BitVec.eq_of_toNat_eq zero)
  unfold State.putRequest State.openIncident
  rw [slot]
  simp only [if_neg stays]
  rfl

section
variable (s : State) (r : OpenRequest) (k : Fin 4) (n : Incident)

theorem State.opening_slot : (s.opening r k n).inc.table[k] = some n := (vector_get_set s.inc.table k k _).trans (if_pos rfl)

theorem State.opening_entry : (s.opening r k n).matcher.entries[r.entry]
    = s.matcher.entries[r.entry].startHoldoff s.time.elapsed := Matcher.setEntry_same _ _ _

theorem State.opening_other (d : Fin 16) (h : d ≠ r.entry) :
    (s.opening r k n).matcher.entries[d] = s.matcher.entries[d] := Matcher.setEntry_other _ _ d h _

theorem State.opening_capture : (s.opening r k n).capture = { s.capture with slots := (s.opening r k n).capture.slots } := by
  obtain ⟨slots, only⟩ := Capture.foldl_pin_only n.frames s.capture
  rw [show (s.opening r k n).capture = _ from only]

theorem State.opening_frame {n : Incident} (once : n.frames.Nodup) (x : Nat) : (s.opening r k n).capture.frame? x
    = (s.capture.frame? x).map fun f => if x ∈ n.frames then { f with pins := f.pins + 1 } else f := by
  refine (Capture.foldl_pin_frame once s.capture x).trans ?_
  split
  · rfl
  · exact Option.map_id'.symm

end

/-! ### The statement -/

section
variable {s : State} {g : Edge} {e : Fin 16} (edge : s.matcher.risingEdge = some g)
  (kind : s.matcher.entries[e].body.kind = 3) (enabled : s.matcher.entries[e].body.enabled = 1)
  (afterOn : s.matcher.entries[e].body.afterOn = 0) (action : s.matcher.entries[e].body.action = 2)
  (free : s.matcher.entries[e].holdoffEnd = none)
  (alone : ∀ d : Fin 16, d ≠ e → s.matcher.entries[d].body.enabled ≠ 1) (nothing : s.NothingToGrant)

include edge kind enabled afterOn action free alone nothing in
/-- An accepted edge with a free slot opens an incident there (R73, R75). -/
theorem edgeAccepted_opens {k : Fin 4} (placed : s.framesPlaced) (timed : s.matcher.entries[e].body.postTime ≠ 0)
    (slot : s.inc.freeSlot = some k) : Completes .trigInEdgeAccepted s fun t =>
      (∃ n, t.inc.table[k] = some n
        ∧ s.Opened n e .external none none g.time (s.time.advanceTo (g.elapsed + 1)).elapsed ∧ n.budget ≤ 32624
        ∧ (∀ x, t.capture.frame? x = (s.capture.frame? x).map fun f =>
            if x ∈ n.frames then { f with pins := f.pins + 1 } else f)
        ∧ (s.Queues 1 [5] → s.joined t = n.openingNotices))
      ∧ t.capture = { s.capture with slots := t.capture.slots }
      ∧ t.inc.evtOut = true ∧ t.inc.opened = s.inc.opened ++ [k] ∧ t.inc.queue = s.inc.queue
      ∧ t.matcher.entries[e] = { s.matcher.entries[e] with
          lastMatch := some g.time, count := s.matcher.entries[e].count + 1
          holdoffEnd := if s.matcher.entries[e].body.holdoff = 0 then none
            else some ((s.time.advanceTo (g.elapsed + 1)).elapsed
              + BitVec.ofNat 48 (s.matcher.entries[e].body.holdoff.toNat * 1000)) }
      ∧ (∀ d : Fin 16, d ≠ e → t.matcher.entries[d] = s.matcher.entries[d])
      ∧ t.matcher.lastAccepted = some g.elapsed ∧ t.matcher.missed = s.matcher.missed
      ∧ t.lines = s.lines ∧ t.store = s.store ∧ t.records = s.records := by
  let a := s.edged g e
  let r := edgeRequest g.time e
  let n := a.newIncident r (freshId s.inc.ids 4 s.inc.idCounter)
  let y := a.opening r k n
  have template : a.matcher.entries[e].body = s.matcher.entries[e].body :=
    (congrArg Entry.body (s.edged_entry g e)).trans rfl
  have opened := State.untriggered_opened (a := a) placed .external e g.time rfl template
  have collects : n.opening = n := if_neg fun zero => timed (template ▸ BitVec.eq_of_toNat_eq zero.2)
  rw [show (a.newIncident ⟨.external, e, none, none, g.time⟩ _).opening = n from collects] at opened
  have put : a.putRequest r = (y, true) :=
    State.putRequest_collects (s := a) slot r (show a.matcher.entries[e].body.postTime ≠ 0 from template ▸ timed)
  obtain ⟨once, -⟩ := a.newIncident_frames (x := none) r n.id (fun _ => nofun) (s.framesPlaced_iff.mp placed)
  change n.frames.Nodup at once
  have capture := a.opening_capture r k n
  have settled : State.settleEvent (s.advanceTo (pointAfterUs g.elapsed 1)) y = { y with inc := y.inc.evaluated } :=
    State.settleEvent_quiet nothing rfl (by rw [show y.capture = _ from capture]; rfl)
      (by rw [show y.capture = _ from capture]; rfl)
  have run := exec_trigInEdgeAccepted edge kind enabled afterOn action free alone
  rw [show (s.edged g e).putRequest (edgeRequest g.time e) = (y, true) from put, settled] at run
  have slotted : y.inc.table[k] = some n := a.opening_slot r k n
  refine ⟨_, run, ⟨n, slotted, opened, opened.holds.untriggered_budget_le, a.opening_frame r k once, fun q => ?_⟩, capture,
    Incidents.evaluated_collecting slotted rfl, rfl, rfl, ?_, fun d other => ?_, rfl, rfl, rfl, rfl, rfl⟩
  · obtain ⟨busy, room, kinds⟩ := q
    have joins := Link.notify_appends a.time.tod (n := .incidentOpened n.id r.source r.entry r.trigger r.time n.captureSet
      n.frames.length n.budget n.preTrimmed) busy (kinds 5 List.mem_cons_self) (by omega)
    exact State.joined_of_appends (s := a) joins rfl
  · refine (a.opening_entry r k n).trans ?_
    rw [show a.matcher.entries[r.entry] = _ from s.edged_entry g e]
    exact Entry.startHoldoff_matched free g.time _
  · exact (a.opening_other r k n d other).trans (s.edged_other g e d other)

include edge kind enabled afterOn action free alone nothing in
/-- Without a free slot its request is missed (R58). -/
theorem edgeAccepted_misses (full : ∀ k : Fin 4, s.inc.table[k] ≠ none) : Completes .trigInEdgeAccepted s fun t =>
    t.matcher.missed = s.matcher.missed + 1 ∧ t.matcher.entries[e].lastMatch = some g.time
      ∧ t.matcher.entries[e].holdoffEnd = none ∧ t.inc = s.inc.evaluated ∧ t.capture = s.capture
      ∧ (s.Queues 1 [4] → s.joined t = [.triggerMissed e .external none g.time (s.matcher.missed + 1)]) := by
  let a := s.edged g e
  let r := edgeRequest g.time e
  have put : a.putRequest r = (a.missTrigger r, false) := State.putRequest_full (s := a) full r
  have settled : State.settleEvent (s.advanceTo (pointAfterUs g.elapsed 1)) (a.missTrigger r)
      = { a.missTrigger r with inc := s.inc.evaluated } := State.settleEvent_quiet nothing rfl rfl rfl
  have run := exec_trigInEdgeAccepted edge kind enabled afterOn action free alone
  rw [show (s.edged g e).putRequest (edgeRequest g.time e) = _ from put, settled] at run
  have entry : (a.missTrigger r).matcher.entries[e] = s.matcher.entries[e].matched g.time := s.edged_entry g e
  refine ⟨_, run, rfl, congrArg Entry.lastMatch entry, (congrArg Entry.holdoffEnd entry).trans free, rfl, rfl, fun q => ?_⟩
  obtain ⟨busy, room, kinds⟩ := q
  have joins := Link.notify_appends a.time.tod (n := .triggerMissed e .external none g.time (s.matcher.missed + 1)) busy
    (kinds 4 List.mem_cons_self) (by omega)
  exact State.joined_of_appends (s := a) joins rfl

end

/-- Settles O45: rising edges by their spacing, then the accepted edge with a free slot and without one. -/
theorem trigInEdgesOpenIncidents : Obligations.TrigInEdgesOpenIncidents := by
  refine ⟨fun s => ⟨fun first => ?_, fun p after => ?_⟩, ?_, ?_⟩
  · rw [exec_trigInRisingEdge, Matcher.spaced_first first]
    rfl
  · rw [exec_trigInRisingEdge, Matcher.spaced_after after]
    simp only [decide_eq_true_eq]
  · intro s g e k b placed edge kind enabled afterOn action free timed alone slot nothing
    obtain ⟨t, run, incident, capture, evtOut, opened, queue, entry, rest⟩ :=
      edgeAccepted_opens edge kind enabled afterOn action free alone nothing placed timed slot
    refine ⟨t, run, incident, capture, evtOut, opened, queue, ?_, ?_, ?_, rest⟩
    · rw [entry]
    · rw [entry]
    · rw [entry]
  · intro s g e b edge kind enabled afterOn action free alone full nothing
    exact edgeAccepted_misses edge kind enabled afterOn action free alone nothing full

end Sys2Proof.Machine
end

section
/-! PROOFS. FORCE_TRIGGER, CLOSE_INCIDENT and CANCEL_INCIDENT (R79, R84, R87 to R89, R95). -/

namespace Sys2Proof.Machine

/-! ### FORCE_TRIGGER (R79) -/

theorem EntryDef.fires_iff (b : EntryDef) :
    b.fires = true ↔ b.kind = 3 ∨ ((b.kind = 1 ∨ b.kind = 2) ∧ b.action = 2) := by
  simp [EntryDef.fires, EntryDef.testsFrames, kindExternal, kindDirect, kindDigest, actionTrigger]

section
variable {entry : Byte} {e : Fin 16} (named : entryOf entry = some e) {s : State}

include named in
theorem forceTriggerBody_idle (idle : ¬ s.matcher.entries[e].body.fires = true) :
    forceTriggerBody entry s = (s, .bare .badArgument) := by
  unfold forceTriggerBody
  simp only [named, if_neg idle]

include named in
theorem forceTriggerBody_full (fires : s.matcher.entries[e].body.fires = true)
    (full : ∀ k : Fin 4, s.inc.table[k] ≠ none) : forceTriggerBody entry s = (s, .bare .noRoom) := by
  unfold forceTriggerBody
  simp only [named, if_pos fires, State.openIncident_full full]

include named in
theorem forceTriggerBody_opened {t : State} (fires : s.matcher.entries[e].body.fires = true)
    (opened : s.openIncident (forcedRequest s.time.tod e) = some t) : forceTriggerBody entry s
      = (State.settleEvent s t, .ok (encLE 2 (freshId s.inc.ids 4 s.inc.idCounter))) := by
  unfold forceTriggerBody
  simp only [named, if_pos fires, opened]

end

theorem State.closeIncident_records (s : State) (k : Fin 4) (r : CloseReason) :
    (s.closeIncident k r).records = s.records := by
  unfold State.closeIncident
  split <;> rfl

theorem State.openIncident_records {s t : State} {r : OpenRequest} (opened : s.openIncident r = some t) :
    t.records = s.records := by
  unfold State.openIncident at opened
  split at opened
  · exact (Option.some_ne_none t opened.symm).elim
  · obtain rfl := Option.some.inj opened
    split
    · exact State.closeIncident_records _ _ _
    · rfl

/-- An opening frees no page and moves no line: with a held array its event re-evaluates EVT_OUT alone (R93). -/
theorem State.Opens.settled {s t : State} {k : Fin 4} {n : Incident} (opens : s.Opens t k n)
    (held : s.arrayIdle = false) : State.settleEvent s t = { t with inc := t.inc.evaluated } := by
  obtain ⟨slots, only⟩ := Capture.foldl_pin_only n.frames s.capture
  have capture : t.capture = { s.capture with slots := slots } := opens.capture.trans only
  refine State.settleEvent_quiet (.inl ?_) opens.lines ?_ ?_
  · unfold State.arrayIdle at held ⊢
    rw [opens.store]
    exact held
  · rw [capture]
  · rw [capture]

/-- The incident that FORCE_TRIGGER opens by an entry, before a post-window of count and time 0 closes it. -/
def State.forced (s : State) (e : Fin 16) : Incident :=
  s.newIncident (forcedRequest s.time.tod e) (freshId s.inc.ids 4 s.inc.idCounter)

theorem forceTriggerBody_opens {s : State} {entry : Byte} {e : Fin 16} {k : Fin 4} (named : entryOf entry = some e)
    (fires : s.matcher.entries[e].body.fires = true) (slot : s.inc.freeSlot = some k) (held : s.arrayIdle = false) :
    ∃ t, s.Opens t k (s.forced e) ∧ t.records = s.records ∧ forceTriggerBody entry s
      = ({ t with inc := t.inc.evaluated }, .ok (encLE 2 (freshId s.inc.ids 4 s.inc.idCounter))) := by
  obtain ⟨t, opened, opens⟩ := State.openIncident_opens slot (forcedRequest s.time.tod e)
  refine ⟨t, opens, State.openIncident_records opened, ?_⟩
  rw [forceTriggerBody_opened named fires opened, opens.settled held]

/-- The notices that have joined by the time a reply is placed, with a frame being sent. -/
theorem State.joined_congr {s t u : State} (notices : t.link.notices = u.link.notices) (time : t.time = u.time) :
    s.joined t = s.joined u := by
  unfold State.joined
  rw [notices, time]

/-- FORCE_TRIGGER with a free slot, and an array that takes no grant (R75, R79). -/
theorem forceTrigger_opens {tag entry : Byte} {e : Fin 16} {s : State} {k : Fin 4} (named : entryOf entry = some e)
    (executing : s.Executing (.forceTrigger tag entry)) (fires : s.matcher.entries[e].body.fires = true)
    (slot : s.inc.freeSlot = some k) (held : s.arrayIdle = false) (placed : s.framesPlaced) :
    Completes (.forceTrigger tag entry) s fun t =>
      t.Carries (.forceTrigger tag entry) .ok (encLE 2 (freshId s.inc.ids 4 s.inc.idCounter))
        ∧ (∃ n, t.inc.table[k] = some n ∧ s.Opened n e .forced none none s.time.tod s.time.elapsed ∧ n.budget ≤ 32624
            ∧ (∀ x, t.capture.frame? x = (s.capture.frame? x).map fun f =>
                if x ∈ n.frames then { f with pins := f.pins + 1 } else f)
            ∧ (s.Queues 2 [5, 6] → s.joined t = n.openingNotices))
        ∧ t.capture = { s.capture with slots := t.capture.slots }
        ∧ t.matcher = s.matcher ∧ t.lines = s.lines ∧ t.store = s.store ∧ t.records = s.records
        ∧ t.time = s.time := by
  let n := s.forced e
  have body (l : Link) (j : Nat) := forceTriggerBody_opens (s := s.relinked l j) named fires slot held
  obtain ⟨t, l, j, run, only, carries, queue⟩ := s.serve_ok (.forceTrigger tag entry) (forceTriggerBody entry)
    (fun l j => (forceTriggerBody entry (s.relinked l j)).1) (fun _ _ => encLE 2 (freshId s.inc.ids 4 s.inc.idCounter))
    rfl executing fun l j => by
      obtain ⟨_, -, -, answers⟩ := body l j
      rw [answers]
      rfl
  obtain ⟨u, opens, records, answers⟩ := body l j
  simp only [answers] at only queue
  have table : t.inc.table[k] = some n.opening := by
    rw [only]
    exact (congrArg (·[k]) opens.table).trans ((vector_get_set s.inc.table k k _).trans (if_pos rfl))
  have capture : t.capture = n.frames.foldl Capture.pin s.capture := by
    rw [only]
    exact opens.capture
  obtain ⟨slots, pinned⟩ := Capture.foldl_pin_only n.frames s.capture
  have once : n.frames.Nodup := (s.newIncident_frames (x := none) (forcedRequest s.time.tod e)
    (freshId s.inc.ids 4 s.inc.idCounter) (fun _ => nofun) (s.framesPlaced_iff.mp placed)).1
  have opened : s.Opened n.opening e .forced none none s.time.tod s.time.elapsed :=
    State.untriggered_opened placed .forced e s.time.tod rfl rfl
  refine ⟨t, run, carries, ⟨n.opening, table, opened, opened.holds.untriggered_budget_le, fun x => ?_, fun q => ?_⟩,
    ?_, ?_, ?_, ?_, ?_, ?_⟩
  · rw [capture, n.opening_frames]
    refine (Capture.foldl_pin_frame once s.capture x).trans ?_
    split
    · rfl
    · exact Option.map_id'.symm
  · obtain ⟨busy, room, kinds⟩ := q
    obtain ⟨rfl, notices⟩ := queue busy
    have joins := opens.joins ⟨busy, room, kinds⟩
    have time : t.time = u.time := by rw [only]
    exact (State.joined_congr (u := u) (notices (joins.busy busy)) time).trans (State.joined_of_appends joins opens.time)
  · rw [capture, pinned]
  · rw [only]; exact opens.matcher
  · rw [only]; exact opens.lines
  · rw [only]; exact opens.store
  · rw [only]; exact records
  · rw [only]; exact opens.time

/-- Settles O47: the two refusals, and the opening. -/
theorem forceTriggerOpensOrRefuses : Obligations.ForceTriggerOpensOrRefuses := by
  intro tag entry e s named executing b
  have fires := EntryDef.fires_iff b
  refine ⟨fun idle => ?_, fun able full => ?_, fun k able slot held placed => ?_⟩
  · refine s.serve_refuses _ _ _ rfl executing fun l j => forceTriggerBody_idle (s := s.relinked l j) named fun able => ?_
    exact (fires.mp able).elim idle.1 idle.2
  · exact s.serve_refuses _ _ _ rfl executing fun l j =>
      forceTriggerBody_full (s := s.relinked l j) named (fires.mpr able) full
  · exact forceTrigger_opens named executing (fires.mpr able) slot held placed

/-! ### CLOSE_INCIDENT (R84, R87) -/

section
variable {id : Half} {k : Fin 4} {n : Incident} {s : State}

theorem closeIncidentBody_unknown (unknown : s.inc.slotOf id = none) :
    closeIncidentBody id s = (s, .bare .notFound) := by
  unfold closeIncidentBody
  rw [unknown]

theorem closeIncidentBody_closed (slot : s.inc.slotOf id = some k) (here : s.inc.table[k] = some n)
    (done : n.state ≠ .collecting) : closeIncidentBody id s = (s, .bare .wrongState) := by
  unfold closeIncidentBody
  simp [slot, here, done]

/-- The state in which an incident has been closed by the host. -/
def State.hostClosed (s : State) (k : Fin 4) (n : Incident) : State :=
  { s with
    inc := Incidents.evaluated { s.inc with
      table := s.inc.table.set k (some (n.closedBy .host)), queue := s.inc.queue ++ [k] }
    link := s.link.notify s.time.tod (n.closedNotice .host) }

theorem closeIncidentBody_closes (slot : s.inc.slotOf id = some k) (here : s.inc.table[k] = some n)
    (collects : n.state = .collecting) (held : s.arrayIdle = false) :
    closeIncidentBody id s = (s.hostClosed k n, .ok []) := by
  have settled : State.settleEvent s (s.closeIncident k .host) = s.hostClosed k n := by
    rw [State.closeIncident_eq here]
    exact State.settleEvent_quiet (.inl held) rfl rfl rfl
  unfold closeIncidentBody
  simp [slot, here, collects, settled]

end

/-- CLOSE_INCIDENT of a COLLECTING incident, with an array that takes no grant (R84, R87). -/
theorem closeIncident_closes {tag : Byte} {id : Half} {s : State} {k : Fin 4} {n : Incident}
    (executing : s.Executing (.closeIncident tag id)) (slot : s.inc.slotOf id = some k)
    (here : s.inc.table[k] = some n) (collects : n.state = .collecting) (held : s.arrayIdle = false) :
    Completes (.closeIncident tag id) s fun t =>
      t.Carries (.closeIncident tag id) .ok []
        ∧ t.inc = Incidents.evaluated { s.inc with
            queue := s.inc.queue ++ [k]
            table := s.inc.table.set k
              (some { n with state := .queued, closeReason := some .host, postTimer := none }) }
        ∧ (s.Queues 1 [6] → s.joined t =
            [.incidentClosed n.id .host n.frames.length n.budget n.postFrames n.preTrimmed n.retried])
        ∧ t = { s with inc := t.inc, link := t.link, freeKey := t.freeKey } := by
  obtain ⟨t, l, j, run, only, carries, queue⟩ := s.serve_ok (.closeIncident tag id) (closeIncidentBody id)
    (fun l j => (s.relinked l j).hostClosed k n) (fun _ _ => []) rfl executing
    fun l j => closeIncidentBody_closes (s := s.relinked l j) slot here collects held
  refine ⟨t, run, carries, ?_, fun q => ?_, ?_⟩
  · rw [only]
    rfl
  · obtain ⟨busy, room, kinds⟩ := q
    obtain ⟨rfl, notices⟩ := queue busy
    have joins := Link.notify_appends s.time.tod (n := n.closedNotice .host) busy (kinds 6 List.mem_cons_self)
      (by omega)
    have time : t.time = s.time := by rw [only]; rfl
    exact (State.joined_congr (u := (s.relinked s.link j).hostClosed k n) (notices (joins.busy busy)) time).trans
      (State.joined_of_appends joins rfl)
  · rw [only]
    rfl

/-! ### CANCEL_INCIDENT (R88, R89) -/

/-- A body that leaves a state whatever the link, and gives one answer. -/
theorem State.serve_answers (s r : State) (row : Instr) (body : State → State × Answer) (a : Answer)
    (he : exec row s = .next (s.serve row body)) (h : s.Executing row)
    (hb : ∀ l k, body (s.relinked l k) = (r.relinked l k, a)) :
    Completes row s fun t => t = r.relinked t.link t.freeKey
      ∧ s.Answered t row a.result (replyTo (reqOf row) a).data := by
  rw [s.serve_in_hand row body h,
    s.answer_congr (reqOf row) false body (fun u => (r.relinked u.link u.freeKey, a)) hb] at he
  obtain ⟨u, -, only, answered⟩ := s.answer_spec row (fun u => (r.relinked u.link u.freeKey, a)) fun _ => rfl
  refine ⟨_, he, ?_, answered⟩
  rw [only]
  rfl

theorem State.abandon_eq {s : State} {k : Fin 4} {n : Incident} (here : s.inc.table[k] = some n) (r : AbandonReason) :
    s.abandon k r = (s.endIncident k n).notify
      (.incidentLost n.id r n.state n.frames.length n.retried n.lostSerial) := by
  unfold State.abandon
  rw [here]

theorem Incident.lostSerial_uncommitted {n : Incident} (h : n.state ≠ .committing) : n.lostSerial = 0xFFFFFFFF#32 :=
  if_neg h

section
variable {id : Half} {k : Fin 4} {n : Incident} {s : State}

theorem cancelIncidentBody_unknown (unknown : s.inc.slotOf id = none) :
    cancelIncidentBody id s = (s, .bare .notFound) := by
  unfold cancelIncidentBody
  rw [unknown]

theorem cancelIncidentBody_pends (slot : s.inc.slotOf id = some k) (here : s.inc.table[k] = some n)
    (commits : n.state = .committing) : cancelIncidentBody id s
      = (s.setIncident k (some { n with cancelPending := true }), .bare .accepted) := by
  unfold cancelIncidentBody
  simp only [slot, here, if_pos commits]

theorem cancelIncidentBody_abandons (slot : s.inc.slotOf id = some k) (here : s.inc.table[k] = some n)
    (waits : n.state ≠ .committing) : cancelIncidentBody id s
      = (State.settleEvent s { s.abandon k .cancelled with records := s.records.forget k }, .ok []) := by
  unfold cancelIncidentBody
  simp only [slot, here, if_neg waits]

end

/-- The state in which the incident in a slot has been cancelled, before its event ends (R71, R89, R131). -/
def State.cancelled (s : State) (k : Fin 4) (n : Incident) : State :=
  { s.endIncident k n with
    records := s.records.forget k
    link := s.link.notify s.time.tod
      (.incidentLost n.id .cancelled n.state n.frames.length n.retried n.lostSerial) }

/-- With a held array the event of a cancellation ends in pool pressure and its announcements. -/
theorem State.settleEvent_cancelled {s : State} {k : Fin 4} {n : Incident} (here : s.inc.table[k] = some n)
    (held : s.arrayIdle = false) :
    State.settleEvent s { s.abandon k .cancelled with records := s.records.forget k }
      = State.conclude s (s.cancelled k n) := by
  rw [State.abandon_eq here]
  refine State.arbitrate_busy _ ?_
  unfold State.arrayIdle at held ⊢
  rw [State.conclude_store]
  exact held

/-- CANCEL_INCIDENT of an incident that is not COMMITTING, with an array that takes no grant (R88, R89, R95). -/
theorem cancelIncident_abandons {tag : Byte} {id : Half} {s : State} {k : Fin 4} {n : Incident}
    (executing : s.Executing (.cancelIncident tag id)) (slot : s.inc.slotOf id = some k)
    (here : s.inc.table[k] = some n) (waits : n.state ≠ .committing) (held : s.arrayIdle = false) :
    Completes (.cancelIncident tag id) s fun t =>
      t.Carries (.cancelIncident tag id) .ok [] ∧ t.inc.table = s.inc.table.set k none
        ∧ (s.Queues 1 [8] → .incidentLost n.id .cancelled n.state n.frames.length n.retried 0xFFFFFFFF#32
            ∈ s.joined t)
        ∧ t.inc.queue = s.inc.queue.filter (· != k) ∧ t.inc.opened = s.inc.opened.filter (· != k)
        ∧ t.capture.slots = (n.frames.foldl Capture.unpin s.capture).slots
        ∧ t.capture.hist = s.capture.hist ∧ t.capture.handed = s.capture.handed ∧ t.matcher = s.matcher
        ∧ t.store = s.store ∧ t.time = s.time ∧ t.records.index = s.records.index := by
  let r := fun (l : Link) (j : Nat) => State.conclude (s.relinked l j) ((s.relinked l j).cancelled k n)
  obtain ⟨t, l, j, run, only, carries, queue⟩ := s.serve_ok (.cancelIncident tag id) (cancelIncidentBody id) r
    (fun _ _ => []) rfl executing fun l j => by
      rw [cancelIncidentBody_abandons (s := s.relinked l j) slot here waits,
        State.settleEvent_cancelled (s := s.relinked l j) here held]
  obtain ⟨free, slots, unpinned⟩ := Capture.foldl_unpin_only n.frames s.capture
  have capture : ((s.relinked l j).cancelled k n).capture = n.frames.foldl Capture.unpin s.capture := rfl
  have inc : t.inc = ((s.relinked l j).cancelled k n).inc.evaluated := by
    rw [only]
    exact State.conclude_inc _ _
  have still (l : Link) : (r l j).time = s.time := State.conclude_time _ _
  have time : t.time = s.time := by
    rw [only]
    exact still l
  refine ⟨t, run, carries, by rw [inc]; rfl, fun q => ?_, by rw [inc]; rfl, by rw [inc]; rfl, ?_, ?_, ?_, ?_, ?_, time, ?_⟩
  · obtain ⟨busy, room, kinds⟩ := q
    obtain ⟨rfl, notices⟩ := queue busy
    have lost := Link.notify_appends s.time.tod
      (n := .incidentLost n.id .cancelled n.state n.frames.length n.retried n.lostSerial) busy
      (kinds 8 List.mem_cons_self) (by omega)
    obtain ⟨more, announced⟩ := State.conclude_appends (s.relinked s.link j) ((s.relinked s.link j).cancelled k n)
      (lost.busy busy)
    have joins : s.link.Appends (r s.link j).link s.time.tod (_ ++ more) := lost.trans announced
    rw [State.joined_congr (u := r s.link j) (notices (joins.busy busy)) (time.trans (still _).symm),
      State.joined_of_appends joins (still _), Incident.lostSerial_uncommitted waits]
    exact List.mem_cons_self
  · rw [only]
    exact (State.conclude_slots _ _).trans (congrArg Capture.slots capture)
  · rw [only]
    exact (State.conclude_hist _ _).trans (by rw [capture, unpinned])
  · rw [only]
    exact (State.conclude_handed _ _).trans (by rw [capture, unpinned])
  · rw [only]
    exact State.conclude_matcher _ _
  · rw [only]
    exact State.conclude_store _ _
  · rw [only]
    change (State.conclude (s.relinked l j) ((s.relinked l j).cancelled k n)).records.index = _
    rw [State.conclude_records]
    rfl

/-- Settles O48: CLOSE_INCIDENT refused twice and obeyed, then CANCEL_INCIDENT refused, accepted and obeyed. -/
theorem closeAndCancelEndIncidents : Obligations.CloseAndCancelEndIncidents := by
  refine ⟨fun tag id s executing => ⟨fun unknown => ?_, fun k n slot here done => ?_, fun k n slot here collects held =>
    closeIncident_closes executing slot here collects held⟩, fun tag id s executing => ⟨fun unknown => ?_,
    fun k n slot here commits => ?_, fun k n slot here waits held =>
      cancelIncident_abandons executing slot here waits held⟩⟩
  · exact s.serve_refuses _ _ _ rfl executing fun l j => closeIncidentBody_unknown (s := s.relinked l j) unknown
  · exact s.serve_refuses _ _ _ rfl executing fun l j => closeIncidentBody_closed (s := s.relinked l j) slot here done
  · exact s.serve_refuses _ _ _ rfl executing fun l j => cancelIncidentBody_unknown (s := s.relinked l j) unknown
  · obtain ⟨t, run, only, answered⟩ := s.serve_answers (s.setIncident k (some { n with cancelPending := true }))
      (.cancelIncident tag id) (cancelIncidentBody id) (.bare .accepted) rfl executing
      fun l j => cancelIncidentBody_pends (s := s.relinked l j) slot here commits
    rw [replyTo_bare] at answered
    exact ⟨t, run, only, answered⟩

end Sys2Proof.Machine
end

section
/-! PROOFS. The reservation of a commit, and what the arbiter grants (R101, R104, R107 to R109, R113, R123, R125 to
R129). -/

namespace Sys2Proof.Machine

/-! ### The sectors in order -/

theorem allSectors_find_first {p : Fin 64 → Bool} {x : Fin 64} (here : p x = true) (before : ∀ y < x, p y = false) :
    allSectors.find? p = some x := by
  refine List.find?_eq_some_iff_getElem.mpr ⟨here, x.val, ?_, ?_, fun j earlier => ?_⟩
  · rw [allSectors, List.length_finRange]
    exact x.isLt
  · simp only [allSectors, List.getElem_finRange, Fin.cast_mk]
  · simp only [allSectors, List.getElem_finRange, Fin.cast_mk]
    rw [before _ (Fin.lt_def.mpr earlier)]
    rfl

theorem allSectors_find_none {p : Fin 64 → Bool} (absent : ∀ x, p x = false) : allSectors.find? p = none :=
  List.find?_eq_none.mpr fun x _ => by rw [absent x]; exact Bool.false_ne_true

/-! ### Background reclaim (R107) -/

theorem Store.toReclaim_of_reclaims {st : Store} {x : Fin 64} (work : st.work = []) (h : st.reclaims x) :
    st.toReclaim = some x := by
  obtain ⟨pending, before⟩ := h
  unfold Store.toReclaim
  rw [work]
  exact allSectors_find_first (by rw [pending]; rfl) fun y earlier => by rw [before y earlier]; rfl

theorem Store.toReclaim_none {st : Store} (settled : ∀ x : Fin 64, st.sectors[x].pending = false) :
    st.toReclaim = none :=
  allSectors_find_none fun x => by rw [settled x]; rfl

/-- A grant of background reclaim acts on the store alone, and begins the erase that is due. -/
theorem State.grantReclaim_left {s : State} (work : s.store.work = []) :
    s.grantReclaim = { s with store := s.grantReclaim.store }
      ∧ s.store.leftToReclaim s.grantReclaim.store s.time.elapsed := by
  refine ⟨?_, fun x due => ?_, fun settled => ?_⟩
  · unfold State.grantReclaim
    split <;> rfl
  · unfold State.grantReclaim
    rw [Store.toReclaim_of_reclaims work due]
    rfl
  · unfold State.grantReclaim
    rw [Store.toReclaim_none settled]

/-! ### Host work (R104, R109) -/

section
variable {s : State} (idle : s.arrayIdle = true)

include idle in
theorem State.arbitrate_item {i : WorkItem} {rest : List WorkItem} (work : s.store.work = i :: rest) :
    s.arbitrate = s.grantItem i rest := by
  unfold State.arbitrate
  simp only [idle, work, if_true]

include idle in
theorem State.idle_unheld : s.store.holder = none ∧ s.store.read = none := by
  unfold State.arrayIdle at idle
  simp only [Bool.and_eq_true, beq_iff_eq] at idle
  exact ⟨idle.1.2, idle.2⟩

include idle in
theorem State.arbitrate_reclaims (work : s.store.work = []) (nothing : s.records.full ≠ none ∨ s.inc.queue = []) :
    s.arbitrate = s.grantReclaim := by
  have commit : (if s.records.full = none then s.grantCommit else s) = s := by
    obtain marked | empty := nothing
    · exact if_neg marked
    · unfold State.grantCommit
      rw [empty, ite_self]
  unfold State.arbitrate
  simp only [idle, work, if_true, commit, (State.idle_unheld idle).1]

end

/-! ### The steps of the reservation (R125, R129) -/

/-- The OPEN sector, if any, is closed (R126). -/
def State.closeOpen (s : State) : State :=
  match s.store.openSector with
  | some x => s.modSector x Sector.close
  | none => s

section
variable {s : State} {k : Fin 4} {c : Commit}

theorem State.reserve_noSerial (last : s.records.nextSerial = 0xFFFFFFFF#32) :
    s.reserve k c = s.noRoom k c .serials := if_pos last

theorem State.reserve_indexFull (more : s.records.nextSerial ≠ 0xFFFFFFFF#32) (full : 1024 ≤ s.records.index.length) :
    s.reserve k c = s.overwriteOr k c .index := (if_neg more).trans (if_pos full)

theorem State.reserve_fits (more : s.records.nextSerial ≠ 0xFFFFFFFF#32) (indexed : s.records.index.length < 1024)
    {x : Fin 64} (opened : s.store.openSector = some x) (fits : c.size ≤ s.store.sectors[x].room) :
    s.reserve k c = s.placeRecord k c x (s.store.sectors[x].fillOffset.getD 0) := by
  refine ((if_neg more).trans (if_neg (Nat.not_le.mpr indexed))).trans ?_
  rw [opened]
  exact if_pos fits

theorem State.reserve_closes (more : s.records.nextSerial ≠ 0xFFFFFFFF#32) (indexed : s.records.index.length < 1024)
    (tight : ¬ ∃ x, s.store.openSector = some x ∧ c.size ≤ s.store.sectors[x].room) :
    s.reserve k c = s.closeOpen.findSector k c := by
  refine ((if_neg more).trans (if_neg (Nat.not_le.mpr indexed))).trans ?_
  unfold State.closeOpen
  cases opened : s.store.openSector with
  | none => rfl
  | some x => exact if_neg fun fits => tight ⟨x, opened, fits⟩

theorem State.findSector_opens {y : Fin 64} (served : s.store.read = none) (found : s.store.toOpen = some y) :
    s.findSector k c = s.commitOpens c y := by
  unfold State.findSector
  rw [found]
  exact s.whenServed_now c _ served

theorem State.findSector_none (none_erased : s.store.toOpen = none) :
    s.findSector k c = s.overwriteOr k c .sector := by
  unfold State.findSector
  rw [none_erased]

theorem State.overwriteOr_victim {y : Fin 64} {r : FullReason} (served : s.store.read = none)
    (found : s.victim c = some y) : s.overwriteOr k c r = s.commitOverwrites c y := by
  unfold State.overwriteOr
  rw [found]
  exact s.whenServed_now c _ served

theorem State.overwriteOr_noRoom {r : FullReason} (absent : s.victim c = none) :
    s.overwriteOr k c r = s.noRoom k c r := by
  unfold State.overwriteOr
  rw [absent]

/-- The sector that a commit overwrites: ERASING, the records it held dead bytes (R104, R128). -/
theorem State.commitOverwrites_sector (s : State) (c : Commit) (y : Fin 64) : (s.commitOverwrites c y).store.sectors[y]
    = Sector.startErase { s.store.sectors[y] with
        dead := s.store.sectors[y].dead + lengthsOf (s.records.index.filter fun e => e.sector == y) } :=
  (State.modSector_same _ y _).trans (congrArg Sector.startErase (State.modSector_same _ y _))

/-- The commit ends with the store-full mark and STORE_FULL (R129). -/
theorem State.noRoom_marks {n : Incident} {r : FullReason} (unmarked : s.records.full = none)
    (here : s.inc.table[k] = some n) : s.noRoom k c r = { s with
      records := { s.records with commit := none, full := some r }
      store := { s.store with holder := none }
      link := s.link.notify s.time.tod
        (.storeFull r n.id c.size s.store.policy s.records.index.length s.store.erasedUnlocked) } := by
  have named : s.inc.idOf k = n.id := by
    unfold Incidents.idOf
    rw [here]
    rfl
  rw [← named]
  exact if_pos unmarked

end

/-! ### The record has its place (R90, R132) -/

theorem leBytes_length (k n : Nat) : (leBytes k n).length = k := by
  induction k generalizing n with
  | zero => rfl
  | succ k ih => rw [leBytes, List.length_cons, ih]

theorem recordHeader_length (state : Byte) (n : Incident) (serial : Word) (size : Nat) :
    (recordHeader state n serial size).length = 64 := by
  simp [recordHeader, headerFields, encLE, u8, u16, time48, crcBytes, blanks, leBytes_length]

theorem Capture.recordImage_take (c : Capture) (n : Incident) (serial : Word) (size : Nat) {len : Nat}
    (within : len ≤ 64) : (c.recordImage n serial size).take len = (recordHeader stateBegun n serial size).take len := by
  unfold Capture.recordImage
  rw [List.append_assoc, List.take_append_of_le_length]
  rw [recordHeader_length]
  exact within

/-- The first unit of a record ends with its header at the latest (R132). -/
theorem unitLength_header (offset size : Nat) : unitLength offset 0 size ≤ 64 := Nat.min_le_left _ _

/-- An incident that has its serial (R90). -/
def Incident.committing (n : Incident) (serial : Word) : Incident :=
  { n with state := .committing, serial := some serial }

/-- The state in which the incident in a slot is COMMITTING under the next serial (R90). -/
def State.committing (s : State) (k : Fin 4) (n : Incident) : State :=
  { s with
    inc := { s.inc with
      queue := s.inc.queue.filter (· != k), table := s.inc.table.set k (some (n.committing s.records.nextSerial)) }
    records := { s.records with nextSerial := s.records.nextSerial + 1 } }

section
variable {s : State} {k : Fin 4} {c : Commit} {n : Incident} (here : s.inc.table[k] = some n) (x : Fin 64) (offset : Nat)

include here in
theorem State.placeRecord_eq : s.placeRecord k c x offset
    = (s.committing k n).whenServed { c with phase := .programming ⟨s.records.nextSerial, x, offset, 0, 0, .record 0⟩ }
        fun u => u.startRecordUnit (n.committing s.records.nextSerial) c
          ⟨s.records.nextSerial, x, offset, 0, 0, .record 0⟩ := by
  unfold State.placeRecord
  rw [here]
  rfl

include here in
/-- Without a record read the record's first unit begins at once. -/
theorem State.placeRecord_now (served : s.store.read = none) (sized : 0 < c.size) : s.placeRecord k c x offset =
    { s.committing k n with
      records := { (s.committing k n).records with commit := some { c with
        phase := .programming ⟨s.records.nextSerial, x, offset, 0, 0, .record (unitLength offset 0 c.size)⟩
        waiting := false } }
      store := { s.store with op := some (.program ⟨x, offset,
        (recordHeader stateBegun (n.committing s.records.nextSerial) s.records.nextSerial c.size).take
          (unitLength offset 0 c.size), .commit, some s.records.nextSerial, s.time.elapsed⟩) } } := by
  rw [State.placeRecord_eq here, State.whenServed_now (s.committing k n) _ _ served,
    ← s.capture.recordImage_take _ _ _ (unitLength_header offset c.size)]
  exact if_pos sized

include here in
/-- During a record read it waits. -/
theorem State.placeRecord_later (reading : s.store.read ≠ none) : s.placeRecord k c x offset =
    (s.committing k n).setCommit { c with
      phase := .programming ⟨s.records.nextSerial, x, offset, 0, 0, .record 0⟩, waiting := true } := by
  rw [State.placeRecord_eq here]
  exact State.whenServed_later _ _ _ reading

end

/-! ### The grant of a commit (R107, R125) -/

/-- The commit of an incident as its grant begins it. -/
def Incident.commitUnder (n : Incident) (k : Fin 4) (policy : StorePolicy) : Commit :=
  { incident := some k, size := 80 + n.budget, policy := policy, phase := .reservation none, waiting := false }

/-- The commit in progress holds the array. -/
def State.granted (s : State) (c : Commit) : State :=
  { s with store := { s.store with holder := some .commit }, records := { s.records with commit := some c } }

theorem State.granted_closeOpen (s : State) (c : Commit) : (s.granted c).closeOpen = s.closeOpen.granted c := by
  have same : (s.granted c).store.openSector = s.store.openSector := rfl
  unfold State.closeOpen
  rw [same]
  cases s.store.openSector <;> rfl

/-- Two states differ in their sectors alone. -/
def State.SectorsOnly (s u : State) : Prop := u = { s with store := { s.store with sectors := u.store.sectors } }

theorem State.closeOpen_sectorsOnly (s : State) : s.SectorsOnly s.closeOpen := by
  unfold State.SectorsOnly State.closeOpen
  cases s.store.openSector <;> rfl

section
variable {s u : State} {k : Fin 4} {q : List (Fin 4)} {n : Incident} {c : Commit} (idle : s.arrayIdle = true)
  (work : s.store.work = []) (unmarked : s.records.full = none) (queue : s.inc.queue = k :: q)
  (here : s.inc.table[k] = some n)

include idle work unmarked in
theorem State.arbitrate_held (held : s.grantCommit.store.holder = some .commit) : s.arbitrate = s.grantCommit := by
  unfold State.arbitrate
  simp only [idle, work, if_true, unmarked, held, reduceCtorEq, if_false]

include idle work unmarked in
theorem State.arbitrate_released (free : s.grantCommit.store.holder = none) :
    s.arbitrate = s.grantCommit.grantReclaim := by
  unfold State.arbitrate
  simp only [idle, work, if_true, unmarked, free]

include queue here in
theorem State.grantCommit_head : s.grantCommit = (s.granted (n.commitUnder k s.store.policy)).reserve k
    (n.commitUnder k s.store.policy) := by
  unfold State.grantCommit
  simp only [queue, here]
  rfl

include idle work unmarked in
/-- The grant overwrites a sector, with its OPEN sector closed or not (R128). -/
theorem State.arbitrate_overwrites {y : Fin 64} (only : s.SectorsOnly u)
    (grant : s.grantCommit = (u.granted c).commitOverwrites c y) :
    let gone := (s.records.index.filter fun e => e.sector == y).map fun e => e.serial
    s.arbitrate.inc = s.inc
      ∧ s.arbitrate.link = s.link.notify s.time.tod (.recordsOverwritten y gone.length
          (gone.head?.getD 0xFFFFFFFF#32) (gone.getLast?.getD 0xFFFFFFFF#32))
      ∧ s.arbitrate.records.index = s.records.index.filter (fun e => e.sector != y)
      ∧ s.arbitrate.store.holder = some .commit ∧ s.arbitrate.store.sectors[y].state = .erasing
      ∧ s.arbitrate.store.sectors[y].eraseComplete = false
      ∧ s.arbitrate.store.op = some (.erase ⟨y, .overwrite, 0, some s.time.elapsed⟩) := by
  have held : s.grantCommit.store.holder = some .commit := by
    rw [grant]
    rfl
  have erasing : s.grantCommit.store.sectors[y].state = .erasing
      ∧ s.grantCommit.store.sectors[y].eraseComplete = false := by
    rw [grant, State.commitOverwrites_sector]
    exact ⟨rfl, rfl⟩
  rw [State.arbitrate_held idle work unmarked held]
  refine ⟨?_, ?_, ?_, held, erasing.1, erasing.2, ?_⟩
  · rw [grant, only]
    rfl
  · rw [grant, only, List.length_map, List.head?_map, List.getLast?_map]
    rfl
  · rw [grant, only]
    rfl
  · rw [grant, only]
    rfl

include idle work unmarked here in
/-- The grant finds no room: the store-full mark, and the array is left to background reclaim (R129). -/
theorem State.arbitrate_marks {r : FullReason} (only : s.SectorsOnly u)
    (grant : s.grantCommit = (u.granted c).noRoom k c r) :
    s.arbitrate.records = { s.records with full := some r, commit := none } ∧ s.arbitrate.inc = s.inc
      ∧ u.store.leftToReclaim s.arbitrate.store s.time.elapsed
      ∧ s.arbitrate.link = s.link.notify s.time.tod
          (.storeFull r n.id c.size s.store.policy s.records.index.length u.store.erasedUnlocked) := by
  have unheld : u.store.holder = none := by
    rw [only]
    exact (State.idle_unheld idle).1
  have table : u.inc.table[k] = some n := by
    rw [only]
    exact here
  have clear : u.records.full = none := by
    rw [only]
    exact unmarked
  have marked : s.grantCommit = { u with
      records := { u.records with commit := none, full := some r }
      link := u.link.notify u.time.tod
        (.storeFull r n.id c.size u.store.policy u.records.index.length u.store.erasedUnlocked) } := by
    rw [grant, State.noRoom_marks (s := u.granted c) clear table]
    change { u with records := _, link := _, store := { u.store with holder := none } } = _
    rw [← unheld]
    rfl
  have free : s.grantCommit.store.holder = none := by
    rw [marked]
    exact unheld
  have waits : s.grantCommit.store.work = [] := by
    rw [marked, only]
    exact work
  obtain ⟨store, left⟩ := State.grantReclaim_left waits
  rw [State.arbitrate_released idle work unmarked free]
  refine ⟨?_, ?_, ?_, ?_⟩
  · rw [store, marked, only]
  · rw [store, marked, only]
  · rw [marked] at left ⊢
    rw [show s.time = u.time by rw [only]]
    exact left
  · rw [store, marked, only]

end

/-! ### The statement -/

/-- The sector that a commit under a policy overwrites in a state (R113, R125). -/
def State.victimUnder (s : State) (policy : StorePolicy) : Option (Fin 64) :=
  if policy = .overwriteOldest then s.store.toOverwrite else none

theorem State.granted_victim (s : State) (n : Incident) (k : Fin 4) (policy : StorePolicy) :
    (s.granted (n.commitUnder k policy)).victim (n.commitUnder k policy) = s.victimUnder policy := rfl

/-- The OPEN sector has room for a record of a size (R125). -/
def State.hasRoom (s : State) (size : Nat) (x : Fin 64) : Prop :=
  s.store.openSector = some x ∧ size ≤ 32768 - (s.store.sectors[x].fillOffset).getD 32768

section
variable {s : State} {k : Fin 4} {q : List (Fin 4)} {n : Incident} (queue : s.inc.queue = k :: q)
  (here : s.inc.table[k] = some n) (more : s.records.nextSerial ≠ 0xFFFFFFFF#32)

include queue here in
theorem State.grantCommit_noSerial (last : s.records.nextSerial = 0xFFFFFFFF#32) :
    s.grantCommit = (s.granted (n.commitUnder k s.store.policy)).noRoom k (n.commitUnder k s.store.policy) .serials :=
  (State.grantCommit_head queue here).trans (State.reserve_noSerial last)

include queue here more in
theorem State.grantCommit_indexFull (full : 1024 ≤ s.records.index.length) : s.grantCommit
    = (s.granted (n.commitUnder k s.store.policy)).overwriteOr k (n.commitUnder k s.store.policy) .index :=
  (State.grantCommit_head queue here).trans (State.reserve_indexFull more full)

variable (indexed : s.records.index.length < 1024)

include queue here more indexed in
theorem State.grantCommit_closes (tight : ¬ ∃ x, s.hasRoom (80 + n.budget) x) : s.grantCommit
    = (s.closeOpen.granted (n.commitUnder k s.store.policy)).findSector k (n.commitUnder k s.store.policy) := by
  rw [State.grantCommit_head queue here, ← State.granted_closeOpen]
  exact State.reserve_closes (s := s.granted _) more indexed tight

include queue here more indexed in
theorem State.grantCommit_fits {x : Fin 64} (room : s.hasRoom (80 + n.budget) x) : s.grantCommit
    = (s.granted (n.commitUnder k s.store.policy)).placeRecord k (n.commitUnder k s.store.policy) x
        ((s.store.sectors[x].fillOffset).getD 0) :=
  (State.grantCommit_head queue here).trans
    (State.reserve_fits (s := s.granted _) (c := n.commitUnder k s.store.policy) more indexed room.1 room.2)

variable (idle : s.arrayIdle = true) (work : s.store.work = []) (unmarked : s.records.full = none)

include idle work unmarked queue here more indexed in
/-- The record has its place in the OPEN sector (R90, R132). -/
theorem State.arbitrate_places {x : Fin 64} (room : s.hasRoom (80 + n.budget) x) :
    s.arbitrate.inc = { s.inc with
        queue := s.inc.queue.filter (· != k)
        table := s.inc.table.set k (some { n with state := .committing, serial := some s.records.nextSerial }) }
      ∧ s.arbitrate.records.nextSerial = s.records.nextSerial + 1
      ∧ s.arbitrate.store.holder = some .commit ∧ s.arbitrate.store.sectors = s.store.sectors
      ∧ ∃ p, s.arbitrate.store.op = some (.program p) ∧ p.sector = x ∧ p.cause = .commit
        ∧ p.serial = some s.records.nextSerial ∧ p.offset = (s.store.sectors[x].fillOffset).getD 0
        ∧ p.bytes.length ≤ 64 ∧ p.bytes <+: recordHeader stateBegun
            { n with state := .committing, serial := some s.records.nextSerial } s.records.nextSerial
            (80 + n.budget) := by
  have sized : 0 < (n.commitUnder k s.store.policy).size := Nat.lt_of_lt_of_le (by decide) (Nat.le_add_right 80 n.budget)
  have grant := (State.grantCommit_fits queue here more indexed room).trans
    (State.placeRecord_now (s := s.granted _) here x _ (State.idle_unheld idle).2 sized)
  have held : s.grantCommit.store.holder = some .commit := by
    rw [grant]
    rfl
  rw [State.arbitrate_held idle work unmarked held, grant]
  refine ⟨rfl, rfl, rfl, rfl, _, rfl, rfl, rfl, rfl, rfl, ?_, List.take_prefix _ _⟩
  rw [List.length_take]
  exact (Nat.min_le_left _ _).trans (unitLength_header _ _)

include idle work unmarked queue here more indexed in
/-- An ERASED sector is opened for it (R127). -/
theorem State.arbitrate_opens {y : Fin 64} (tight : ¬ ∃ x, s.hasRoom (80 + n.budget) x)
    (found : s.closeOpen.store.toOpen = some y) :
    s.arbitrate.inc = s.inc ∧ s.arbitrate.records.index = s.records.index
      ∧ s.arbitrate.store.sectors = s.closeOpen.store.sectors ∧ s.arbitrate.store.holder = some .commit
      ∧ s.arbitrate.store.nextSeq = nextSequence s.store.nextSeq
      ∧ s.arbitrate.store.op = some (.program
          ⟨y, 0, sectorHeader s.store.nextSeq, .commit, none, s.time.elapsed⟩) := by
  have only := s.closeOpen_sectorsOnly
  have served : (s.closeOpen.granted (n.commitUnder k s.store.policy)).store.read = none := by
    rw [only]
    exact (State.idle_unheld idle).2
  have grant := (State.grantCommit_closes queue here more indexed tight).trans (State.findSector_opens served found)
  have held : s.grantCommit.store.holder = some .commit := by
    rw [grant]
    rfl
  rw [State.arbitrate_held idle work unmarked held, grant]
  rw [only]
  exact ⟨rfl, rfl, rfl, rfl, rfl, rfl⟩

end

/-- Settles O50: a held array, the two kinds of host work, background reclaim, and the grant of a commit by the steps of
its reservation. -/
theorem arbiterGrantsInOrder : Obligations.ArbiterGrantsInOrder := by
  refine ⟨fun s busy => s.arbitrate_busy busy, fun s x rest idle work => State.arbitrate_item idle work,
    fun s serial x offset rest idle work => State.arbitrate_item idle work, fun s idle work nothing => ?_, ?_⟩
  · rw [State.arbitrate_reclaims idle work nothing]
    exact State.grantReclaim_left work
  · intro s k q n idle work unmarked queue here size closed victim gone overwrites marks hasRoom
    let c := n.commitUnder k s.store.policy
    have same : s.SectorsOnly s := rfl
    have only : s.SectorsOnly s.closeOpen := s.closeOpen_sectorsOnly
    have served (u : State) (h : s.SectorsOnly u) : (u.granted c).store.read = none := by
      rw [h]
      exact (State.idle_unheld idle).2
    have beyond (more : s.records.nextSerial ≠ 0xFFFFFFFF#32) (indexed : s.records.index.length < 1024)
        (tight : ¬ ∃ x, s.hasRoom (80 + n.budget) x) (absent : s.closeOpen.store.toOpen = none) :
        s.grantCommit = (s.closeOpen.granted c).overwriteOr k c .sector :=
      (State.grantCommit_closes queue here more indexed tight).trans
        (State.findSector_none (s := s.closeOpen.granted c) absent)
    have closes : closed = s.closeOpen := rfl
    refine ⟨fun last => ?_, fun more full => ⟨fun y found => ?_, fun absent => ?_⟩,
      fun more indexed => ⟨fun x room => ?_, fun y tight found => ?_, fun y tight absent found => ?_,
        fun tight absent none_full => ?_⟩⟩
    · exact State.arbitrate_marks idle work unmarked here same (State.grantCommit_noSerial queue here last)
    · exact State.arbitrate_overwrites idle work unmarked same ((State.grantCommit_indexFull queue here more full).trans
        (State.overwriteOr_victim (served s same) found))
    · exact State.arbitrate_marks idle work unmarked here same ((State.grantCommit_indexFull queue here more full).trans
        (State.overwriteOr_noRoom absent))
    · exact State.arbitrate_places queue here more indexed idle work unmarked room
    · exact State.arbitrate_opens queue here more indexed idle work unmarked tight found
    · rw [closes] at absent found
      exact State.arbitrate_overwrites idle work unmarked only ((beyond more indexed tight absent).trans
        (State.overwriteOr_victim (s := s.closeOpen.granted c) (served s.closeOpen only) found))
    · rw [closes] at absent none_full
      exact State.arbitrate_marks idle work unmarked here only ((beyond more indexed tight absent).trans
        (State.overwriteOr_noRoom (s := s.closeOpen.granted c) none_full))

end Sys2Proof.Machine
end

section
/-! PROOFS. Program units end (R97, R98, R115): the passing state unit (R91, R95, R123, R133), and a sector header that
opens its sector or spoils it (R102, R103, R106, R125, R127, R129). -/

namespace Sys2Proof.Machine

/-! ### The rows of a program unit (R97, R98) -/

/-- The state in which a unit's cells have taken the values they were driven to, and no operation is in progress. -/
def State.driven (s : State) (p : ProgramOp) (rest cells : List Byte) : State :=
  s.leaveBytes p (drivenBytes (s.formerBytes p) rest cells)

section
variable {s : State} {p : ProgramOp} {cells : List Byte} (op : s.store.op = some (.program p))

include op in
theorem exec_programUnitEnd_passes (inTime : (s.time.elapsed - p.since).toNat ≤ 3000) (passes : s.UnitPasses p cells) :
    exec (.programUnitEnd cells) s = .next (State.settleEvent s ((s.driven p p.bytes cells).unitPassed p)) := by
  change execProgramUnitEnd cells s = _
  unfold execProgramUnitEnd
  rw [op]
  exact (if_pos inTime).trans (congrArg (fun u => Host.Outcome.next (State.settleEvent s u)) (if_pos passes))

include op in
theorem exec_programUnitEnd_fails (inTime : (s.time.elapsed - p.since).toNat ≤ 3000) (fails : ¬ s.UnitPasses p cells) :
    exec (.programUnitEnd cells) s = .next (State.settleEvent s ((s.driven p p.bytes cells).unitFailed p)) := by
  change execProgramUnitEnd cells s = _
  unfold execProgramUnitEnd
  rw [op]
  exact (if_pos inTime).trans (congrArg (fun u => Host.Outcome.next (State.settleEvent s u)) (if_neg fails))

include op in
theorem exec_programUnitTimeout : exec (.programUnitTimeout cells) s
    = .next (State.settleEvent (s.advanceTo (p.since + 3000))
        (((s.advanceTo (p.since + 3000)).driven p [] cells).unitFailed p)) := by
  change execProgramUnitTimeout cells s = _
  unfold execProgramUnitTimeout
  rw [op]
  rfl

end

theorem Memory.readRange_length (m : Memory) (a n : Nat) : (m.readRange a n).length = n := by
  rw [Memory.readRange, List.length_map, List.length_range]

/-- A unit whose cells all take the value written passes its verify (R97). -/
theorem State.unitPasses_all (s : State) (p : ProgramOp) : s.UnitPasses p [] := by
  have sized : (s.formerBytes p).length = p.bytes.length := Memory.readRange_length _ _ _
  unfold State.UnitPasses drivenBytes intendedBytes
  refine List.ext_getElem (by simp [sized]) fun i before behind => ?_
  have inside : i < (s.formerBytes p).length := by simpa using before
  have written : i < p.bytes.length := sized ▸ inside
  simp [List.getD_eq_getElem?_getD, List.getElem?_eq_getElem inside, List.getElem?_eq_getElem written]

/-! ### What a unit that has ended leaves to its holder -/

section
variable {s : State} {p : ProgramOp} {c : Commit} (commit : s.records.commit = some c) (cause : p.cause = .commit)

include commit cause in
theorem State.unitPassed_header {x : Fin 64} {seq : Word} (phase : c.phase = .reservation (some (x, seq))) :
    s.unitPassed p = (s.modSector x (Sector.opened seq)).recheck { c with phase := .reservation none } := by
  unfold State.unitPassed
  simp only [cause, commit, phase]

include commit cause in
theorem State.unitFailed_header {x : Fin 64} {seq : Word} (phase : c.phase = .reservation (some (x, seq))) :
    s.unitFailed p
      = ((s.programFault p).modSector x Sector.spoilt).recheck { c with phase := .reservation none } := by
  unfold State.unitFailed
  simp only [cause, commit, phase]

variable {g : Programming} {k : Fin 4} (incident : c.incident = some k) (phase : c.phase = .programming g)

include commit cause incident phase in
theorem State.unitPassed_record {len : Nat} (unit : g.unit = .record len) :
    s.unitPassed p = s.continueRecord k c { g with done := g.done + len, units := g.units + 1 } := by
  unfold State.unitPassed
  simp only [cause, commit, phase, incident, unit]

include commit cause incident phase in
theorem State.unitPassed_complete (unit : g.unit = .complete) : s.unitPassed p = s.retain k c g := by
  unfold State.unitPassed
  simp only [cause, commit, phase, incident, unit]

include commit cause incident phase in
theorem State.unitPassed_cancel (unit : g.unit = .cancel) : s.unitPassed p = s.cancelMarked k c g := by
  unfold State.unitPassed
  simp only [cause, commit, phase, incident, unit]

include commit cause incident phase in
theorem State.unitFailed_programming : s.unitFailed p = s.commitFails k p g := by
  unfold State.unitFailed
  simp only [cause, commit, phase, incident]

end

/-- A discard mark that fails closes an OPEN sector, and the array returns to the arbiter (R109). -/
theorem State.unitFailed_mark {s : State} {p : ProgramOp} (cause : p.cause = .mark) :
    s.unitFailed p = ((s.programFault p).modSector p.sector Sector.close).dropHolder := by
  unfold State.unitFailed
  simp only [cause]

/-! ### The end of a unit's event -/

theorem State.arrayIdle_held {s : State} {h : Holder} (held : s.store.holder = some h) : s.arrayIdle = false := by
  unfold State.arrayIdle
  rw [held]
  simp

/-- While the commit goes on, the event of a unit re-evaluates EVT_OUT alone (R93). -/
theorem State.settleEvent_commits {s x : State} (held : x.store.holder = some .commit) (lines : x.lines = s.lines)
    (capture : x.capture = s.capture) : State.settleEvent s x = { x with inc := x.inc.evaluated } :=
  State.settleEvent_quiet (.inl (State.arrayIdle_held held)) lines (by rw [capture]) (by rw [capture])

theorem Completes.commits {s x : State} {row : Instr} {post : State → Prop}
    (run : exec row s = .next (State.settleEvent s x)) (held : x.store.holder = some .commit) (lines : x.lines = s.lines)
    (capture : x.capture = s.capture) (ends : post { x with inc := x.inc.evaluated }) : Completes row s post :=
  ⟨_, run.trans (congrArg _ (State.settleEvent_commits held lines capture)), ends⟩

/-! ### The state unit (R91, R95, R123, R133) -/

/-- A sector that has gained a record of a size (R133). -/
def Sector.gains (size : Nat) (v : Sector) : Sector :=
  { v with fillOffset := v.fillOffset.map (· + size), live := v.live + 1 }

/-- The state in which a commit has succeeded (R91, R133). -/
def State.retained (s : State) (k : Fin 4) (c : Commit) (g : Programming) (n : Incident) : State :=
  { s with
    capture := n.frames.foldl Capture.unpin s.capture
    inc := { s.inc with
      table := s.inc.table.set k none, opened := s.inc.opened.filter (· != k), queue := s.inc.queue.filter (· != k) }
    store := { (s.modSector g.sector (Sector.gains c.size)).store with holder := none }
    records := { s.records with index := s.records.index ++ [indexEntryOf n g c.size], commit := none }
    link := s.link.notify s.time.tod (.incidentRetained n.id g.serial g.sector g.offset c.size n.frames.length
      n.closeReason n.preTrimmed n.retried) }

theorem State.retain_eq {s : State} {k : Fin 4} {n : Incident} (here : s.inc.table[k] = some n) (c : Commit)
    (g : Programming) : s.retain k c g = s.retained k c g n := by
  unfold State.retain
  rw [here]
  rfl

theorem State.leaveBytes_other (s : State) (p : ProgramOp) (bytes : List Byte) (y : Fin 64) (other : y ≠ p.sector) :
    (s.leaveBytes p bytes).store.sectors[y] = s.store.sectors[y] :=
  s.modSector_other p.sector y other fun v => { v with mem := v.mem.writeBytes p.offset bytes }

theorem State.leaveBytes_sector (s : State) (p : ProgramOp) (bytes : List Byte) (y : Fin 64) :
    (s.leaveBytes p bytes).store.sectors[y]
      = { s.store.sectors[y] with mem := (s.leaveBytes p bytes).store.sectors[y].mem } := by
  by_cases same : y = p.sector
  · subst same
    let f := fun v : Sector => { v with mem := v.mem.writeBytes p.offset bytes }
    have written : (s.leaveBytes p bytes).store.sectors[p.sector] = f s.store.sectors[p.sector] :=
      s.modSector_same p.sector f
    rw [written]
  · rw [s.leaveBytes_other p bytes y same]

/-- Settles O53: every cell of the state unit is driven to its value, so it passes; with no work waiting the event ends
in pool pressure and its announcements. -/
theorem stateUnitRetainsTheIncident : Obligations.StateUnitRetainsTheIncident := by
  intro s p c g k n op cause inTime commit incident phase unit here work queue settled
  let a := s.driven p p.bytes []
  let v := a.retained k c g n
  have run := exec_programUnitEnd_passes op inTime (s.unitPasses_all p)
  rw [State.unitPassed_complete (s := a) commit cause incident phase unit, State.retain_eq (s := a) here] at run
  have sector : v.store.sectors[g.sector] = Sector.gains c.size
      { s.store.sectors[g.sector] with mem := a.store.sectors[g.sector].mem } :=
    (a.modSector_same g.sector (Sector.gains c.size)).trans
      (congrArg (Sector.gains c.size) (s.leaveBytes_sector p _ g.sector))
  have pending (y : Fin 64) : v.store.sectors[y].pending = false := by
    have before : a.store.sectors[y].pending = false :=
      (congrArg Sector.pending (s.leaveBytes_sector p _ y)).trans (settled y)
    by_cases same : y = g.sector
    · subst same
      rw [sector]
      exact settled g.sector
    · exact (congrArg Sector.pending (a.modSector_other g.sector y same (Sector.gains c.size))).trans before
  have nothing : v.NothingToGrant :=
    .inr ⟨work, congrArg (List.filter (· != k)) queue, Store.toReclaim_none pending⟩
  have ends : State.settleEvent s v = State.conclude s v := State.arbitrate_nothing (nothing.conclude s)
  refine ⟨_, run.trans (congrArg _ ends), ?_⟩
  dsimp only
  rw [State.conclude_inc, State.conclude_records, State.conclude_store, State.conclude_slots, sector]
  refine ⟨rfl, rfl, rfl, rfl, rfl, rfl, rfl, rfl, rfl, rfl, rfl, fun q => ?_⟩
  obtain ⟨busy, room, kinds⟩ := q
  have first := Link.notify_appends s.time.tod (n := .incidentRetained n.id g.serial g.sector g.offset c.size
    n.frames.length n.closeReason n.preTrimmed n.retried) busy (kinds 7 List.mem_cons_self) (by omega)
  obtain ⟨more, announced⟩ := State.conclude_appends s v (first.busy busy)
  have joins : s.link.Appends (State.conclude s v).link s.time.tod (_ ++ more) := first.trans announced
  rw [State.joined_of_appends joins (State.conclude_time s v)]
  exact List.mem_cons_self

/-! ### Sector tables that agree but for contents (R103, R108, R129) -/

/-- Two stores agree in their sectors but for what the sectors hold. -/
def Store.SameTable (a b : Store) : Prop := ∀ y : Fin 64, ∃ m, b.sectors[y] = { a.sectors[y] with mem := m }

theorem State.leaveBytes_sameTable (s : State) (p : ProgramOp) (bytes : List Byte) :
    s.store.SameTable (s.leaveBytes p bytes).store := fun y => ⟨_, s.leaveBytes_sector p bytes y⟩

section
variable {a b : Store} (same : a.SameTable b)

include same in
theorem Store.SameTable.toOpen : b.toOpen = a.toOpen := by
  refine congrArg (fun p => allSectors.find? p) (funext fun y => ?_)
  obtain ⟨m, contents⟩ := same y
  rw [contents]

include same in
theorem Store.SameTable.erasedUnlocked : b.erasedUnlocked = a.erasedUnlocked := by
  refine congrArg (fun p => (allSectors.filter p).length) (funext fun y => ?_)
  obtain ⟨m, contents⟩ := same y
  rw [contents]

end

theorem Store.SameTable.modSector {s t : State} (same : s.store.SameTable t.store) (x : Fin 64) {f : Sector → Sector}
    (blind : ∀ v m, f { v with mem := m } = { f v with mem := m }) :
    (s.modSector x f).store.SameTable (t.modSector x f).store := by
  intro y
  obtain ⟨m, contents⟩ := same y
  refine ⟨m, ?_⟩
  by_cases here : y = x
  · subst here
    rw [State.modSector_same, State.modSector_same, contents, blind]
  · rw [State.modSector_other _ _ _ here, State.modSector_other _ _ _ here, contents]

@[simp] theorem Sector.settle_state (v : Sector) : v.settle.state = v.state := by
  unfold Sector.settle
  split <;> rfl

theorem Sector.settle_blind (v : Sector) (m : Memory) :
    Sector.settle { v with mem := m } = { v.settle with mem := m } := by
  have same : Sector.reclaimable { v with mem := m } = v.reclaimable := rfl
  unfold Sector.settle
  rw [same]
  split <;> rfl

/-- A spoilt header leaves its sector DIRTY, and to be erased when it may be (R106, R127). -/
theorem Sector.spoilt_dirty (v : Sector) : v.spoilt.state = .dirty := Sector.settle_state _

theorem Sector.spoilt_pending {v : Sector} (unlocked : v.protection = .unlocked) : v.spoilt.pending = true := by
  have candidate : Sector.reclaimable { v with state := .dirty } = true := by
    simp [Sector.reclaimable, unlocked]
  unfold Sector.spoilt Sector.settle
  rw [if_pos candidate]

theorem Sector.spoilt_blind (v : Sector) (m : Memory) :
    Sector.spoilt { v with mem := m } = { v.spoilt with mem := m } := Sector.settle_blind { v with state := .dirty } m

theorem Store.openSector_only {st : Store} {x : Fin 64} (here : st.sectors[x].state = .opened)
    (others : ∀ y : Fin 64, y ≠ x → st.sectors[y].state ≠ .opened) : st.openSector = some x :=
  allSectors_find_first (beq_iff_eq.mpr here) fun y before => beq_eq_false_iff_ne.mpr (others y (Fin.ne_of_lt before))

theorem Store.openSector_none {st : Store} (none_opened : ∀ y : Fin 64, st.sectors[y].state ≠ .opened) :
    st.openSector = none := allSectors_find_none fun y => beq_eq_false_iff_ne.mpr (none_opened y)

/-! ### The re-check at the end of a header's unit (R125, R127) -/

theorem State.recheck_incident {s : State} {c : Commit} {k : Fin 4} (incident : c.incident = some k) :
    s.recheck c = s.reserve k c := by
  unfold State.recheck
  rw [incident]

theorem State.reserve_unopened {s : State} {k : Fin 4} {c : Commit} (more : s.records.nextSerial ≠ 0xFFFFFFFF#32)
    (indexed : s.records.index.length < 1024) (none_opened : s.store.openSector = none) :
    s.reserve k c = s.findSector k c := by
  have stays : s.closeOpen = s := by
    unfold State.closeOpen
    rw [none_opened]
  rw [State.reserve_closes more indexed fun ⟨x, opened, _⟩ => Option.some_ne_none x (opened.symm.trans none_opened), stays]

/-- A record that has its place, its first unit begun or behind a record read (R102, R132). -/
theorem State.placeRecord_cases {s : State} {k : Fin 4} {c : Commit} {n : Incident} (here : s.inc.table[k] = some n)
    (sized : 0 < c.size) (x : Fin 64) (offset : Nat) : ∃ d o, s.placeRecord k c x offset = { s.committing k n with
        records := { (s.committing k n).records with commit := some d }, store := { s.store with op := o } }
      ∧ (s.store.read = none → o = some (.program ⟨x, offset,
          (recordHeader stateBegun (n.committing s.records.nextSerial) s.records.nextSerial c.size).take
            (unitLength offset 0 c.size), .commit, some s.records.nextSerial, s.time.elapsed⟩))
      ∧ (s.store.read ≠ none → o = s.store.op ∧ d.waiting = true) := by
  by_cases served : s.store.read = none
  · exact ⟨_, _, State.placeRecord_now here x offset served sized, fun _ => rfl, fun reading => absurd served reading⟩
  · exact ⟨_, s.store.op, State.placeRecord_later here x offset served, fun idle => absurd idle served,
      fun _ => ⟨rfl, rfl⟩⟩

/-- With the store-full mark set, a grant acts on the store alone, and on no fault (R107, R129). -/
theorem State.arbitrate_full {s : State} (marked : s.records.full ≠ none) :
    s.arbitrate = { s with store := s.arbitrate.store } ∧ s.arbitrate.store.faults = s.store.faults := by
  have reclaim : s.grantReclaim = { s with store := s.grantReclaim.store }
      ∧ s.grantReclaim.store.faults = s.store.faults := by
    unfold State.grantReclaim
    split <;> exact ⟨rfl, rfl⟩
  unfold State.arbitrate
  split
  · split
    next i rest _ => cases i <;> exact ⟨rfl, rfl⟩
    next =>
      dsimp only
      split
      · exact reclaim
      · exact ⟨rfl, rfl⟩
  · exact ⟨rfl, rfl⟩

/-- The state in which a passing header unit has opened its sector. -/
def State.headed (s : State) (p : ProgramOp) (cells : List Byte) (x : Fin 64) (seq : Word) : State :=
  (s.driven p p.bytes cells).modSector x (Sector.opened seq)

theorem State.headed_sector (s : State) (p : ProgramOp) (cells : List Byte) (x : Fin 64) (seq : Word) :
    (s.headed p cells x seq).store.sectors[x] = { s.store.sectors[x] with
      mem := (s.headed p cells x seq).store.sectors[x].mem
      state := .opened, seq := some seq, fillOffset := some 64, live := 0, dead := 0 } := by
  have sector : (s.headed p cells x seq).store.sectors[x] = Sector.opened seq _ :=
    (State.modSector_same _ x _).trans (congrArg (Sector.opened seq) (s.leaveBytes_sector p _ x))
  rw [sector]
  rfl

theorem State.headed_other (s : State) (p : ProgramOp) (cells : List Byte) (x : Fin 64) (seq : Word) (y : Fin 64)
    (other : y ≠ x) :
    (s.headed p cells x seq).store.sectors[y] = (s.driven p p.bytes cells).store.sectors[y] :=
  State.modSector_other _ x y other _

/-- The state in which a failing header unit has spoilt its sector. -/
def State.spoiled (s : State) (p : ProgramOp) (cells : List Byte) (x : Fin 64) : State :=
  ((s.driven p p.bytes cells).programFault p).modSector x Sector.spoilt

theorem State.spoiled_sameTable (s : State) (p : ProgramOp) (cells : List Byte) (x : Fin 64) :
    (s.modSector x Sector.spoilt).store.SameTable (s.spoiled p cells x).store :=
  Store.SameTable.modSector (t := (s.driven p p.bytes cells).programFault p) (s.leaveBytes_sameTable p _) x
    Sector.spoilt_blind

/-- The link with the fault of a commit's unit announced (R115). -/
def State.faultLink (s : State) (p : ProgramOp) : Link :=
  s.link.notify s.time.tod (.storeFault true p.sector p.offset .commit (p.serial.getD 0xFFFFFFFF#32)
    { s.store.faults with programFail := true })

section
variable {s : State} {p : ProgramOp} {cells : List Byte} {c : Commit} {x : Fin 64} {seq : Word} {k : Fin 4}
  {n : Incident} (op : s.store.op = some (.program p)) (cause : p.cause = .commit)
  (inTime : (s.time.elapsed - p.since).toNat ≤ 3000) (holder : s.store.holder = some .commit)
  (commit : s.records.commit = some c) (incident : c.incident = some k)
  (phase : c.phase = .reservation (some (x, seq))) (here : s.inc.table[k] = some n)
  (unopened : ∀ y : Fin 64, s.store.sectors[y].state ≠ .opened) (more : s.records.nextSerial ≠ 0xFFFFFFFF#32)
  (indexed : s.records.index.length < 1024)

include commit cause incident phase unopened more indexed in
theorem State.unitPassed_places (fits : c.size ≤ 32704) : (s.driven p p.bytes cells).unitPassed p
    = (s.headed p cells x seq).placeRecord k { c with phase := .reservation none } x 64 := by
  let v := s.headed p cells x seq
  have sector := s.headed_sector p cells x seq
  have opened : v.store.openSector = some x := by
    refine Store.openSector_only ((congrArg Sector.state sector).trans rfl) fun y other => ?_
    rw [s.headed_other p cells x seq y other, State.driven, s.leaveBytes_sector p _ y]
    exact unopened y
  have room : c.size ≤ v.store.sectors[x].room := fits.trans_eq (congrArg Sector.room sector).symm
  rw [State.unitPassed_header (s := s.driven p p.bytes cells) commit cause phase,
    State.recheck_incident (c := { c with phase := .reservation none }) incident]
  refine (State.reserve_fits (s := v) (c := { c with phase := .reservation none }) more indexed opened room).trans ?_
  exact congrArg (fun w : Sector => v.placeRecord k { c with phase := .reservation none } x (w.fillOffset.getD 0)) sector

include op cause inTime holder commit incident phase here unopened more indexed in
/-- A passing header unit: the sector is OPEN, and the record has its place at its body's start. -/
theorem header_opens (large : 80 ≤ c.size) (fits : c.size ≤ 32704) (passes : s.UnitPasses p cells) :
    Completes (.programUnitEnd cells) s fun t =>
      t.inc = Incidents.evaluated { s.inc with
          queue := s.inc.queue.filter (· != k)
          table := s.inc.table.set k (some (n.committing s.records.nextSerial)) }
        ∧ t.records.nextSerial = s.records.nextSerial + 1 ∧ t.records.index = s.records.index
        ∧ t.store.holder = some .commit ∧ t.store.nextSeq = s.store.nextSeq ∧ t.store.faults = s.store.faults
        ∧ t.store.sectors[x] = { s.store.sectors[x] with
            mem := t.store.sectors[x].mem, state := .opened, seq := some seq, fillOffset := some 64, live := 0, dead := 0 }
        ∧ (∀ y : Fin 64, y ≠ x → p.sector = x → t.store.sectors[y] = s.store.sectors[y])
        ∧ (s.store.read = none → t.store.op = some (.program ⟨x, 64,
            recordHeader stateBegun (n.committing s.records.nextSerial) s.records.nextSerial c.size,
            .commit, some s.records.nextSerial, s.time.elapsed⟩))
        ∧ (s.store.read ≠ none → t.store.op = none ∧ ∃ d, t.records.commit = some d ∧ d.waiting = true)
        ∧ t.link = s.link ∧ t.capture = s.capture ∧ t.lines = s.lines ∧ t.matcher = s.matcher ∧ t.time = s.time := by
  let v := s.headed p cells x seq
  have run := exec_programUnitEnd_passes op inTime passes
  obtain ⟨d, o, places, begun, waits⟩ := State.placeRecord_cases (s := v) (c := { c with phase := .reservation none })
    here (Nat.lt_of_lt_of_le (by decide) large) x 64
  rw [State.unitPassed_places cause commit incident phase unopened more indexed fits, places] at run
  refine Completes.commits run holder rfl rfl ⟨rfl, rfl, rfl, holder, rfl, rfl, s.headed_sector p cells x seq,
    fun y other own => ?_, fun served => ?_, fun reading => ?_, rfl, rfl, rfl, rfl, rfl⟩
  · exact (s.headed_other p cells x seq y other).trans (s.leaveBytes_other p _ y (own ▸ other))
  · refine (begun served).trans ?_
    rw [show unitLength 64 0 _ = 64 from rfl, List.take_of_length_le (recordHeader_length _ _ _ _).le]
    rfl
  · obtain ⟨same, waiting⟩ := waits reading
    exact ⟨same, d, rfl, waiting⟩

include commit cause incident phase unopened more indexed in
theorem State.unitFailed_finds : (s.driven p p.bytes cells).unitFailed p
    = (s.spoiled p cells x).findSector k { c with phase := .reservation none } := by
  let v := s.spoiled p cells x
  have none_opened (y : Fin 64) : v.store.sectors[y].state ≠ .opened := by
    obtain ⟨m, contents⟩ := s.spoiled_sameTable p cells x y
    rw [contents]
    by_cases same : y = x
    · subst same
      rw [State.modSector_same]
      exact (Sector.spoilt_dirty _).symm ▸ SectorState.noConfusion
    · rw [State.modSector_other s x y same]
      exact unopened y
  rw [State.unitFailed_header (s := s.driven p p.bytes cells) commit cause phase,
    State.recheck_incident (c := { c with phase := .reservation none }) incident]
  exact State.reserve_unopened (s := v) more indexed (Store.openSector_none none_opened)

include cause in
theorem State.spoiled_link (cells : List Byte) (x : Fin 64) : (s.spoiled p cells x).link = s.faultLink p := by
  unfold State.faultLink
  rw [← cause]
  rfl

include op cause inTime holder commit incident phase unopened more indexed in
/-- A failing header unit, and another sector to open. -/
theorem header_opensAnother {y : Fin 64} (fails : ¬ s.UnitPasses p cells)
    (other : (s.modSector x Sector.spoilt).store.toOpen = some y) (served : s.store.read = none) :
    Completes (.programUnitEnd cells) s fun t =>
      t.store.sectors[x].state = .dirty
        ∧ (s.store.sectors[x].protection = .unlocked → t.store.sectors[x].pending = true)
        ∧ t.store.faults = { s.store.faults with programFail := true } ∧ t.link = s.faultLink p
        ∧ t.inc = s.inc.evaluated ∧ t.store.holder = some .commit
        ∧ t.store.nextSeq = nextSequence s.store.nextSeq
        ∧ t.store.op = some (.program ⟨y, 0, sectorHeader s.store.nextSeq, .commit, none, s.time.elapsed⟩) := by
  let v := s.spoiled p cells x
  have table := s.spoiled_sameTable p cells x
  have run := exec_programUnitEnd_fails op inTime fails
  rw [State.unitFailed_finds cause commit incident phase unopened more indexed,
    State.findSector_opens (s := v) served (table.toOpen.trans other)] at run
  obtain ⟨m, contents⟩ := table x
  rw [State.modSector_same] at contents
  refine Completes.commits run holder rfl rfl ⟨?_, fun unlocked => ?_, rfl, State.spoiled_link cause cells x, rfl, holder, rfl, rfl⟩
  · change v.store.sectors[x].state = .dirty
    rw [show v.store.sectors[x] = _ from contents]
    exact Sector.spoilt_dirty _
  · change v.store.sectors[x].pending = true
    rw [show v.store.sectors[x] = _ from contents]
    exact Sector.spoilt_pending unlocked

include op cause inTime commit incident phase here unopened more indexed in
/-- A failing header unit, with no other sector to open and none to overwrite. -/
theorem header_findsNoRoom (fails : ¬ s.UnitPasses p cells)
    (other : (s.modSector x Sector.spoilt).store.toOpen = none) (stop : c.policy = .stop)
    (unmarked : s.records.full = none) : Completes (.programUnitEnd cells) s fun t =>
      t.records = { s.records with commit := none, full := some .sector }
        ∧ t.store.faults = { s.store.faults with programFail := true } ∧ t.inc = s.inc.evaluated
        ∧ t.link = (s.faultLink p).notify s.time.tod (.storeFull .sector n.id c.size s.store.policy
            s.records.index.length (s.modSector x Sector.spoilt).store.erasedUnlocked) := by
  let v := s.spoiled p cells x
  let c' : Commit := { c with phase := .reservation none }
  let w : State := { v with
    records := { v.records with commit := none, full := some .sector }
    store := { v.store with holder := none }
    link := v.link.notify v.time.tod
      (.storeFull .sector n.id c'.size v.store.policy v.records.index.length v.store.erasedUnlocked) }
  have settled : State.settleEvent s w = { w with inc := w.inc.evaluated }.arbitrate :=
    congrArg State.arbitrate (s.conclude_quiet w (fun _ => rfl) (Capture.calmSince_of_free rfl rfl))
  obtain ⟨only, faults⟩ := State.arbitrate_full (s := { w with inc := w.inc.evaluated }) (Option.some_ne_none _)
  have table := s.spoiled_sameTable p cells x
  have absent : v.victim c' = none := if_neg (show c.policy ≠ .overwriteOldest by rw [stop]; exact StorePolicy.noConfusion)
  have run := exec_programUnitEnd_fails op inTime fails
  rw [State.unitFailed_finds cause commit incident phase unopened more indexed,
    State.findSector_none (s := v) (table.toOpen.trans other), State.overwriteOr_noRoom absent,
    show v.noRoom k c' .sector = w from State.noRoom_marks unmarked here, settled] at run
  refine ⟨_, run, ?_, faults, ?_, ?_⟩
  · rw [only]
    rfl
  · rw [only]
    rfl
  · rw [only, ← table.erasedUnlocked, ← State.spoiled_link cause cells x]
    rfl

end

/-- Settles O51: the passing unit, and the failing one with and without another sector to open. -/
theorem headerUnitOpensOrSpoils : Obligations.HeaderUnitOpensOrSpoils := by
  intro s p cells c x seq k n taken other faults fault op cause inTime holder commit incident phase own here large fits
    unopened more indexed
  refine ⟨fun passes => ?_, fun fails y found served => ?_, fun fails absent stop unmarked => ?_⟩
  · obtain ⟨t, run, inc, serial, index, held, sequence, unfaulted, sector, others, rest⟩ :=
      header_opens op cause inTime holder commit incident phase here unopened more indexed large fits passes
    exact ⟨t, run, inc, serial, index, held, sequence, unfaulted, sector, fun y away => others y away own, rest⟩
  · exact header_opensAnother op cause inTime holder commit incident phase unopened more indexed fails found served
  · exact header_findsNoRoom op cause inTime commit incident phase here unopened more indexed fails absent stop unmarked

end Sys2Proof.Machine
end

section
/-! PROOFS. The units of a commit in its programming phase, and a discard mark that times out (R89, R92, R98, R109, R115,
R132 to R135). -/

namespace Sys2Proof.Machine

/-! ### A passing unit of the record (R132, R133, R135) -/

/-- The state in which a commit has begun a unit of its record. -/
def State.unitBegun (s : State) (c : Commit) (g : Programming) (u : UnitKind) (offset : Nat) (bytes : List Byte) : State :=
  { s with
    records := { s.records with commit := some { c with phase := .programming { g with unit := u }, waiting := false } }
    store := { s.store with
      op := some (.program ⟨g.sector, offset, bytes, .commit, some g.serial, s.time.elapsed⟩) } }

section
variable {s : State} {k : Fin 4} {n : Incident} (here : s.inc.table[k] = some n) (c : Commit) (g : Programming)

include here in
theorem State.unitBoundary_cancels (pending : n.cancelPending = true) :
    s.unitBoundary k c g = s.unitBegun c g .cancel (g.offset + 4) [0x0F] := by
  unfold State.unitBoundary
  simp only [here, pending, if_true]
  rfl

include here in
theorem State.unitBoundary_goesOn (pending : ¬ n.cancelPending = true) (left : g.done < c.size) :
    s.unitBoundary k c g = s.unitBegun c g (.record (unitLength g.offset g.done c.size)) (g.offset + g.done)
      (((s.capture.recordImage n g.serial c.size).drop g.done).take (unitLength g.offset g.done c.size)) := by
  unfold State.unitBoundary
  simp only [here, pending, State.startRecordUnit, left, if_true]
  rfl

include here in
theorem State.unitBoundary_completes (pending : ¬ n.cancelPending = true) (whole : ¬ g.done < c.size) :
    s.unitBoundary k c g = s.unitBegun c g .complete (g.offset + 4) [0x3F] := by
  unfold State.unitBoundary
  simp only [here, pending, if_false, State.startRecordUnit, whole]
  rfl

end

section
variable {s : State} {p : ProgramOp} {c : Commit} {g : Programming} {k : Fin 4} {n : Incident} {cells : List Byte}
  {len : Nat} (programs : s.Programs p c g k n) (unit : g.unit = .record len)
  (inTime : (s.time.elapsed - p.since).toNat ≤ 3000) (passes : s.UnitPasses p cells)

/-- A record of which a unit has passed. -/
def Programming.grown (g : Programming) (len : Nat) : Programming :=
  { g with done := g.done + len, units := g.units + 1 }

include programs unit inTime passes in
theorem exec_recordUnit : exec (.programUnitEnd cells) s
    = .next (State.settleEvent s ((s.driven p p.bytes cells).continueRecord k c (g.grown len))) := by
  obtain ⟨op, cause, -, commit, incident, phase, -⟩ := programs
  rw [exec_programUnitEnd_passes op inTime passes,
    State.unitPassed_record (s := s.driven p p.bytes cells) commit cause incident phase unit]
  rfl

include programs unit inTime passes in
/-- The next unit waits for the end of a record read (R102, R133). -/
theorem recordUnit_waits (reading : s.store.read ≠ none) : Completes (.programUnitEnd cells) s fun t =>
    t.inc = s.inc.evaluated ∧ t.link = s.link ∧ t.capture = s.capture ∧ t.store.holder = some .commit
      ∧ t.store.op = none
      ∧ t.records = { s.records with commit := some { c with waiting := true, phase := .programming (g.grown len) } } := by
  have run := exec_recordUnit programs unit inTime passes
  obtain ⟨-, -, holder, -⟩ := programs
  rw [State.continueRecord, State.whenServed_later (s.driven p p.bytes cells) _ _ reading] at run
  exact Completes.commits run holder rfl rfl ⟨rfl, rfl, rfl, holder, rfl, rfl⟩

include programs unit inTime passes in
/-- Without a record read the next unit begins at once. -/
theorem recordUnit_begins (served : s.store.read = none) {u : UnitKind} {offset : Nat} {bytes : List Byte}
    (boundary : (s.driven p p.bytes cells).unitBoundary k c (g.grown len)
      = (s.driven p p.bytes cells).unitBegun c (g.grown len) u offset bytes) :
    Completes (.programUnitEnd cells) s fun t =>
      t.inc = s.inc.evaluated ∧ t.link = s.link ∧ t.capture = s.capture ∧ t.store.holder = some .commit
        ∧ t.records = { s.records with commit := some { c with
            waiting := false, phase := .programming { g.grown len with unit := u } } }
        ∧ t.store.op = some (.program ⟨g.sector, offset, bytes, .commit, some g.serial, s.time.elapsed⟩) := by
  have run := exec_recordUnit programs unit inTime passes
  obtain ⟨-, -, holder, -⟩ := programs
  rw [State.continueRecord, State.whenServed_now (s.driven p p.bytes cells) _ _ served, boundary] at run
  exact Completes.commits run holder rfl rfl ⟨rfl, rfl, rfl, holder, rfl, rfl⟩

end

/-! ### Notices in front of what the end of an event announces (R182) -/

/-- The notices that an event has queued stand before those that its end announces. -/
theorem State.conclude_behind (old s : State) (busy : s.link.tx ≠ none) :
    s.link.notices <+: (State.conclude old s).link.notices := by
  obtain ⟨ns, -, -, more, notices, -⟩ := State.conclude_appends old s busy
  exact ⟨more, notices.symm⟩

/-! ### The cancellation mark (R89, R135) -/

/-- A sector that has gained dead bytes of a size (R135). -/
def Sector.wastes (size : Nat) (v : Sector) : Sector :=
  { v with fillOffset := v.fillOffset.map (· + size), dead := v.dead + size }

/-- The state in which the incident in a slot is ABANDONED (R89). -/
def State.abandoned (s : State) (k : Fin 4) (n : Incident) (why : AbandonReason) : State :=
  { s.endIncident k n with
    link := s.link.notify s.time.tod (.incidentLost n.id why n.state n.frames.length n.retried n.lostSerial) }

theorem State.cancelMarked_eq {s : State} {k : Fin 4} {n : Incident} (here : s.inc.table[k] = some n) (c : Commit)
    (g : Programming) : s.cancelMarked k c g
      = ((s.modSector g.sector (Sector.wastes c.size)).abandoned k n .cancelled).endCommit :=
  congrArg State.endCommit (State.abandon_eq (s := s.modSector g.sector (Sector.wastes c.size)) here .cancelled)

/-- The passing mark: the incident is lost as cancelled, its record dead bytes, and the arbiter acts. -/
theorem cancelUnit_passes {s : State} {p : ProgramOp} {c : Commit} {g : Programming} {k : Fin 4} {n : Incident}
    {cells : List Byte} (programs : s.Programs p c g k n) (unit : g.unit = .cancel)
    (inTime : (s.time.elapsed - p.since).toNat ≤ 3000) (passes : s.UnitPasses p cells) :
    ∃ u : State, exec (.programUnitEnd cells) s = .next u.arbitrate
      ∧ u.inc.table = s.inc.table.set k none ∧ u.records = { s.records with commit := none }
      ∧ u.store.holder = none ∧ u.store.op = none ∧ u.store.faults = s.store.faults
      ∧ u.store.sectors[g.sector] = { s.store.sectors[g.sector] with
          mem := u.store.sectors[g.sector].mem
          fillOffset := s.store.sectors[g.sector].fillOffset.map (· + c.size)
          dead := s.store.sectors[g.sector].dead + c.size }
      ∧ u.capture.slots = (n.frames.foldl Capture.unpin s.capture).slots
      ∧ (s.Queues 1 [8] → (s.link.notices ++ [⟨s.link.number, s.time.tod,
          .incidentLost n.id .cancelled n.state n.frames.length n.retried n.lostSerial⟩]) <+: u.link.notices) := by
  obtain ⟨op, cause, holder, commit, incident, phase, here⟩ := programs
  let a := s.driven p p.bytes cells
  let v := ((a.modSector g.sector (Sector.wastes c.size)).abandoned k n .cancelled).endCommit
  have run := exec_programUnitEnd_passes op inTime passes
  rw [State.unitPassed_cancel (s := a) commit cause incident phase unit, State.cancelMarked_eq (s := a) here] at run
  have sector : v.store.sectors[g.sector] = Sector.wastes c.size
      { s.store.sectors[g.sector] with mem := a.store.sectors[g.sector].mem } :=
    (a.modSector_same g.sector (Sector.wastes c.size)).trans
      (congrArg (Sector.wastes c.size) (s.leaveBytes_sector p _ g.sector))
  refine ⟨State.conclude s v, run, ?_⟩
  rw [State.conclude_inc, State.conclude_records, State.conclude_store, State.conclude_slots, sector]
  refine ⟨rfl, rfl, rfl, rfl, rfl, rfl, rfl, fun q => ?_⟩
  obtain ⟨busy, room, kinds⟩ := q
  have joins : v.link = s.link.join s.time.tod
      (.incidentLost n.id .cancelled n.state n.frames.length n.retried n.lostSerial) :=
    s.link.notify_joins s.time.tod _ busy (kinds 8 List.mem_cons_self) (by omega)
  have behind := State.conclude_behind s v (by rw [joins]; exact busy)
  rwa [joins] at behind

/-! ### A failing unit (R92, R134) -/

@[simp] theorem Sector.close_unopened (v : Sector) : v.close.state ≠ .opened := by
  unfold Sector.close
  split
  · rw [Sector.settle_state]
    exact SectorState.noConfusion
  next other => exact other

/-- The state in which a unit has failed: its bytes as they were left, PROGRAM_FAIL with STORE_FAULT, and a sector closed
(R115, R134). -/
def State.unitSpoiled (s : State) (p : ProgramOp) (bytes : List Byte) (x : Fin 64) : State :=
  ((s.leaveBytes p bytes).programFault p).modSector x Sector.close

section
variable (s : State) (p : ProgramOp) (bytes : List Byte) (x : Fin 64)

@[simp] theorem State.unitSpoiled_lines : (s.unitSpoiled p bytes x).lines = s.lines := rfl
@[simp] theorem State.unitSpoiled_capture : (s.unitSpoiled p bytes x).capture = s.capture := rfl
@[simp] theorem State.unitSpoiled_inc : (s.unitSpoiled p bytes x).inc = s.inc := rfl
@[simp] theorem State.unitSpoiled_records : (s.unitSpoiled p bytes x).records = s.records := rfl
@[simp] theorem State.unitSpoiled_time : (s.unitSpoiled p bytes x).time = s.time := rfl

end

/-- The notice of the fault. -/
def State.faultNotice (s : State) (p : ProgramOp) : Notice :=
  .storeFault true p.sector p.offset p.cause (p.serial.getD 0xFFFFFFFF#32) { s.store.faults with programFail := true }

theorem State.unitSpoiled_joins {s : State} {p : ProgramOp} {bytes : List Byte} {x : Fin 64} {room : Nat}
    {kinds : List Nat} (q : s.Queues room kinds) (some_room : 1 ≤ room) (passes : 11 ∈ kinds) :
    (s.unitSpoiled p bytes x).link = s.link.join s.time.tod (s.faultNotice p) := by
  obtain ⟨busy, bound, masks⟩ := q
  exact s.link.notify_joins s.time.tod (s.faultNotice p) busy (masks 11 passes) (by omega)

/-- What the failure of a unit makes of the commit's incident (R92, R134). -/
def State.incidentFails (s : State) (k : Fin 4) (g : Programming) (n : Incident) : State :=
  if n.cancelPending = true ∨ g.unit = .cancel then s.abandoned k n .cancelled
  else if n.retried = true then s.abandoned k n .storeFault
  else s.retry k n

theorem State.incidentFails_keeps (s : State) (k : Fin 4) (g : Programming) (n : Incident) :
    (s.incidentFails k g n).store = s.store ∧ (s.incidentFails k g n).records = s.records
      ∧ (s.incidentFails k g n).time = s.time := by
  unfold State.incidentFails
  split
  · exact ⟨rfl, rfl, rfl⟩
  · split <;> exact ⟨rfl, rfl, rfl⟩

theorem State.commitFails_eq {s : State} {k : Fin 4} {n : Incident} (here : s.inc.table[k] = some n) (p : ProgramOp)
    (g : Programming) : s.commitFails k p g
      = (((s.programFault p).modSector g.sector Sector.close).incidentFails k g n).endCommit := by
  have lost (why : AbandonReason) : ((s.programFault p).modSector g.sector Sector.close).abandon k why
      = ((s.programFault p).modSector g.sector Sector.close).abandoned k n why :=
    State.abandon_eq (s := (s.programFault p).modSector g.sector Sector.close) here why
  unfold State.commitFails State.incidentFails
  simp only [here, lost]

section
variable {s : State} {p : ProgramOp} {c : Commit} {g : Programming} {k : Fin 4} {n : Incident}

/-- Either row that ends a failing unit: at the end of its time, or at a moment within it (log 3). -/
theorem State.UnitFails.run {row : Instr} (fails : s.UnitFails p row) (programs : s.Programs p c g k n) :
    ∃ time bytes, exec row s = .next (State.settleEvent { s with time := time }
      ((({ s with time := time } : State).unitSpoiled p bytes g.sector).incidentFails k g n).endCommit) := by
  obtain ⟨op, cause, holder, commit, incident, phase, here⟩ := programs
  have failed (u : State) (same : u.records = s.records) (table : u.inc = s.inc) : u.unitFailed p
      = (((u.programFault p).modSector g.sector Sector.close).incidentFails k g n).endCommit := by
    rw [State.unitFailed_programming (s := u) (same ▸ commit) cause incident phase,
      State.commitFails_eq (by rw [table]; exact here)]
  obtain ⟨cells, rfl, inTime, refused⟩ | ⟨cells, rfl⟩ := fails
  · refine ⟨s.time, drivenBytes (s.formerBytes p) p.bytes cells, ?_⟩
    rw [exec_programUnitEnd_fails op inTime refused, failed (s.driven p p.bytes cells) rfl rfl]
    rfl
  · refine ⟨s.time.advanceTo (p.since + 3000), drivenBytes (s.formerBytes p) [] cells, ?_⟩
    rw [exec_programUnitTimeout op, failed ((s.advanceTo (p.since + 3000)).driven p [] cells) rfl rfl]
    rfl

/-- What the failure of a unit does whatever becomes of the incident (R115, R134). -/
theorem unitFails_ends (s : State) (p : ProgramOp) (bytes : List Byte) (g : Programming) (k : Fin 4) (n : Incident) :
    let u := State.conclude s ((s.unitSpoiled p bytes g.sector).incidentFails k g n).endCommit
    u.records = { s.records with commit := none } ∧ u.store.holder = none ∧ u.store.op = none
      ∧ u.store.faults = { s.store.faults with programFail := true } ∧ u.store.sectors[g.sector].state ≠ .opened
      ∧ u.time = s.time := by
  obtain ⟨store, records, time⟩ := (s.unitSpoiled p bytes g.sector).incidentFails_keeps k g n
  intro u
  have kept : u.store = { (s.unitSpoiled p bytes g.sector).store with holder := none } := by
    rw [← store]
    exact State.conclude_store _ _
  have closed : (s.unitSpoiled p bytes g.sector).store.sectors[g.sector].state ≠ .opened := by
    unfold State.unitSpoiled
    rw [State.modSector_same]
    exact Sector.close_unopened _
  refine ⟨?_, congrArg Store.holder kept, congrArg Store.op kept, congrArg Store.faults kept, ?_,
    (State.conclude_time _ _).trans time⟩
  · refine (State.conclude_records _ _).trans ?_
    change { State.records _ with commit := none } = _
    rw [records]
    rfl
  · rw [kept]
    exact closed

/-- The incident is lost (R89, R134). -/
theorem unitFails_loses (s : State) (p : ProgramOp) (bytes : List Byte) (x : Fin 64) (k : Fin 4) (n : Incident)
    (why : AbandonReason) :
    let u := State.conclude s ((s.unitSpoiled p bytes x).abandoned k n why).endCommit
    u.inc.table = s.inc.table.set k none ∧ u.inc.queue = s.inc.queue.filter (· != k)
      ∧ u.capture.slots = (n.frames.foldl Capture.unpin s.capture).slots
      ∧ (s.Queues 2 [8, 11] → (s.link.notices ++ [⟨s.link.number, s.time.tod, s.faultNotice p⟩,
          ⟨s.link.number + 1, s.time.tod, .incidentLost n.id why n.state n.frames.length n.retried n.lostSerial⟩])
            <+: u.link.notices) := by
  let lost : Notice := .incidentLost n.id why n.state n.frames.length n.retried n.lostSerial
  let v := ((s.unitSpoiled p bytes x).abandoned k n why).endCommit
  dsimp only
  rw [State.conclude_inc, State.conclude_slots]
  refine ⟨rfl, rfl, rfl, fun q => ?_⟩
  have first := State.unitSpoiled_joins (p := p) (bytes := bytes) (x := x) q (by decide) (by decide)
  obtain ⟨busy, room, kinds⟩ := q
  have joins : v.link = (s.link.join s.time.tod (s.faultNotice p)).join s.time.tod lost := by
    change (s.unitSpoiled p bytes x).link.notify s.time.tod lost = _
    rw [first]
    refine Link.notify_joins _ _ _ busy (kinds 8 List.mem_cons_self) ?_
    change (s.link.notices ++ [_]).length < 16
    rw [List.length_append, List.length_singleton]
    omega
  have behind := State.conclude_behind s v (by rw [joins]; exact busy)
  rw [joins] at behind
  change (s.link.notices ++ [_]) ++ [_] <+: _ at behind
  rwa [List.append_assoc] at behind

/-- The incident is QUEUED at the head again (R92). -/
theorem unitFails_retries (s : State) (p : ProgramOp) (bytes : List Byte) (x : Fin 64) (k : Fin 4) (n : Incident) :
    let u := State.conclude s ((s.unitSpoiled p bytes x).retry k n).endCommit
    u.inc = Incidents.evaluated { s.inc with
        queue := k :: s.inc.queue, table := s.inc.table.set k (some { n with state := .queued, retried := true }) }
      ∧ u.capture = s.capture
      ∧ (s.Queues 1 [11] → (s.link.notices ++ [⟨s.link.number, s.time.tod, s.faultNotice p⟩]) <+: u.link.notices) := by
  dsimp only
  rw [State.conclude_quiet s ((s.unitSpoiled p bytes x).retry k n).endCommit (fun _ => rfl)
    (Capture.calmSince_of_free rfl rfl)]
  refine ⟨rfl, s.unitSpoiled_capture p bytes x, fun q => ?_⟩
  change _ <+: (s.unitSpoiled p bytes x).link.notices
  rw [State.unitSpoiled_joins q le_rfl List.mem_cons_self]
  exact List.prefix_rfl

/-- A failing unit of the record, of its state or of its cancellation. -/
theorem programUnit_fails {row : Instr} (programs : s.Programs p c g k n) (fails : s.UnitFails p row) :
    let faults := { s.store.faults with programFail := true }
    let lost := fun (u : State) (why : AbandonReason) =>
      u.inc.table = s.inc.table.set k none ∧ u.inc.queue = s.inc.queue.filter (· != k)
        ∧ u.capture.slots = (n.frames.foldl Capture.unpin s.capture).slots
        ∧ (s.Queues 2 [8, 11] → (s.link.notices ++ [⟨s.link.number, u.time.tod, s.faultNotice p⟩,
             ⟨s.link.number + 1, u.time.tod,
               .incidentLost n.id why n.state n.frames.length n.retried n.lostSerial⟩]) <+: u.link.notices)
    ∃ u : State, exec row s = .next u.arbitrate
      ∧ u.records = { s.records with commit := none } ∧ u.store.holder = none ∧ u.store.op = none
      ∧ u.store.faults = faults ∧ u.store.sectors[g.sector].state ≠ .opened
      ∧ (if n.cancelPending = true ∨ g.unit = .cancel then lost u .cancelled
         else if n.retried = true then lost u .storeFault
         else u.inc = Incidents.evaluated { s.inc with
               queue := k :: s.inc.queue, table := s.inc.table.set k (some { n with state := .queued, retried := true }) }
           ∧ u.capture = s.capture
           ∧ (s.Queues 1 [11] → (s.link.notices ++ [⟨s.link.number, u.time.tod, s.faultNotice p⟩])
               <+: u.link.notices)) := by
  intro faults lost
  obtain ⟨time, bytes, run⟩ := fails.run programs
  let b : State := { s with time := time }
  obtain ⟨records, holder, op, faulted, closed, clock⟩ := unitFails_ends b p bytes g k n
  refine ⟨_, run, records, holder, op, faulted, closed, ?_⟩
  have loses (why : AbandonReason) (fate : (b.unitSpoiled p bytes g.sector).incidentFails k g n
      = (b.unitSpoiled p bytes g.sector).abandoned k n why) :
      lost (State.conclude b ((b.unitSpoiled p bytes g.sector).incidentFails k g n).endCommit) why := by
    have result := unitFails_loses b p bytes g.sector k n why
    rw [← fate] at result
    unfold lost
    rw [clock]
    exact result
  split
  next cancels => exact loses .cancelled (if_pos cancels)
  next stays =>
    split
    next again => exact loses .storeFault ((if_neg stays).trans (if_pos again))
    next once =>
      have result := unitFails_retries b p bytes g.sector k n
      rw [← show (b.unitSpoiled p bytes g.sector).incidentFails k g n = _ from (if_neg stays).trans (if_neg once)] at result
      rw [clock]
      exact result

end

/-! ### A discard mark that times out (R98, R109, R115) -/

theorem markUnit_timesOut {s : State} {p : ProgramOp} (cells : List Byte) (op : s.store.op = some (.program p))
    (cause : p.cause = .mark) : ∃ u : State, exec (.programUnitTimeout cells) s = .next u.arbitrate
      ∧ u.store.faults = { s.store.faults with programFail := true } ∧ u.time = s.time.advanceTo (p.since + 3000)
      ∧ u.store.sectors[p.sector].state ≠ .opened ∧ u.store.op = none ∧ u.store.holder = none
      ∧ (s.Queues 1 [11] → u.link.notices = s.link.notices ++ [⟨s.link.number, u.time.tod,
          .storeFault true p.sector p.offset .mark (p.serial.getD 0xFFFFFFFF#32) u.store.faults⟩])
      ∧ u.records = s.records ∧ u.lines = s.lines ∧ u.capture = s.capture := by
  let b := s.advanceTo (p.since + 3000)
  let bytes := drivenBytes (b.formerBytes p) [] cells
  let w := b.unitSpoiled p bytes p.sector
  have run : exec (.programUnitTimeout cells) s = .next (State.settleEvent b w.dropHolder) := by
    rw [exec_programUnitTimeout op, State.unitFailed_mark cause]
    rfl
  have calm : State.conclude b w.dropHolder = { w.dropHolder with inc := w.dropHolder.inc.evaluated } :=
    State.conclude_quiet b w.dropHolder (fun _ => rfl) (Capture.calmSince_of_free rfl rfl)
  have closed : w.store.sectors[p.sector].state ≠ .opened := by
    unfold w State.unitSpoiled
    rw [State.modSector_same]
    exact Sector.close_unopened _
  refine ⟨_, run.trans (congrArg (fun u : State => Host.Outcome.next u.arbitrate) calm), rfl,
    b.unitSpoiled_time p bytes p.sector, closed, rfl, rfl, fun q => ?_, b.unitSpoiled_records p bytes p.sector,
    b.unitSpoiled_lines p bytes p.sector, b.unitSpoiled_capture p bytes p.sector⟩
  have joins : w.link = b.link.join b.time.tod (b.faultNotice p) :=
    State.unitSpoiled_joins (s := b) (room := 1) (kinds := [11]) q le_rfl List.mem_cons_self
  change w.link.notices = _
  rw [joins, State.faultNotice, cause]
  rfl

/-- Settles O52: a passing unit of the record, a passing cancellation mark, a failing unit by either row, and the timeout
of a discard mark. -/
theorem commitUnitsGoOnFailOrCancel : Obligations.CommitUnitsGoOnFailOrCancel := by
  refine ⟨fun s p c g k n cells len programs unit inTime passes => ?_,
    fun s p c g k n cells programs unit inTime passes => cancelUnit_passes programs unit inTime passes,
    fun s p c g k n row programs fails => ?_, fun s p cells op cause => markUnit_timesOut cells op cause⟩
  · intro done image begins
    obtain ⟨-, -, -, -, -, -, here⟩ := id programs
    by_cases served : s.store.read = none
    · have goes {u : UnitKind} {offset : Nat} {bytes : List Byte}
          (boundary : (s.driven p p.bytes cells).unitBoundary k c (g.grown len)
            = (s.driven p p.bytes cells).unitBegun c (g.grown len) u offset bytes) :=
        recordUnit_begins programs unit inTime passes served boundary
      by_cases pending : n.cancelPending = true
      · obtain ⟨t, run, inc, link, capture, holder, begun⟩ :=
          goes (State.unitBoundary_cancels (s := s.driven p p.bytes cells) here c (g.grown len) pending)
        refine ⟨t, run, inc, link, capture, holder, fun reading => absurd served reading, fun _ => ?_⟩
        rw [if_pos pending]
        exact begun
      · by_cases left : done < c.size
        · obtain ⟨t, run, inc, link, capture, holder, begun⟩ :=
            goes (State.unitBoundary_goesOn (s := s.driven p p.bytes cells) here c (g.grown len) pending left)
          refine ⟨t, run, inc, link, capture, holder, fun reading => absurd served reading, fun _ => ?_⟩
          rw [if_neg pending, if_pos left]
          exact begun
        · obtain ⟨t, run, inc, link, capture, holder, begun⟩ :=
            goes (State.unitBoundary_completes (s := s.driven p p.bytes cells) here c (g.grown len) pending left)
          refine ⟨t, run, inc, link, capture, holder, fun reading => absurd served reading, fun _ => ?_⟩
          rw [if_neg pending, if_neg left]
          exact begun
    · obtain ⟨t, run, inc, link, capture, holder, waits⟩ := recordUnit_waits programs unit inTime passes served
      exact ⟨t, run, inc, link, capture, holder, fun _ => waits, fun idle => absurd idle served⟩
  · have result := programUnit_fails programs fails
    obtain ⟨-, cause, -⟩ := programs
    unfold State.faultNotice at result
    rw [cause] at result
    exact result

end Sys2Proof.Machine
end

section
/-! PROOFS. What every command keeps of the host link and the array: the relation, and the events that leave the store
alone (R178, R179, R181 to R184, R196). -/

namespace Sys2Proof.Machine

/-! ### The link in order (R178, R182, R196) -/

/-- The invariants of the host link, which `State.queuesBounded`, `State.masksKept` and `Link.consistent` share. -/
def Link.InOrder (l : Link) : Prop :=
  (l.requests.length ≤ 4 ∧ l.notices.length ≤ 16) ∧ (inSet l.kindMask 1 = true ∧ inSet l.kindMask 14 = true)
    ∧ l.consistent

theorem State.inOrder_iff (s : State) : s.queuesBounded ∧ s.masksKept ∧ s.link.consistent ↔
    s.link.InOrder ∧ s.store.work.length ≤ 8 := by
  unfold State.queuesBounded State.masksKept Link.InOrder
  tauto

/-- The head request is taken (R179). -/
theorem Link.takeNext_idle (a : Link) : a.takeNext.handler = .idle → a.takeNext.requests = [] := by
  unfold Link.takeNext
  split
  next => exact fun h => (nomatch h)
  next untaken =>
    intro idle
    cases queue : a.requests with
    | nil => rfl
    | cons q rest => exact (untaken q rest idle queue).elim

/-- A link that would be in order but for requests that wait at its IDLE handler is, once the head is taken (R179). -/
theorem Link.InOrder.takeNext {a : Link} (bounds : a.requests.length ≤ 4 ∧ a.notices.length ≤ 16)
    (masks : inSet a.kindMask 1 = true ∧ inSet a.kindMask 14 = true)
    (replies : a.slot ≠ none → a.tx ≠ none ∧ (a.handler = .replyHeld ∨ a.handler = .halted))
    (held : a.handler = .replyHeld → a.slot ≠ none) (waits : a.notices ≠ [] → a.tx ≠ none) : a.takeNext.InOrder := by
  have taken := a.takeNext_idle
  unfold Link.takeNext at taken ⊢
  revert taken
  split
  next q rest idle queue =>
    intro taken
    have shorter : rest.length ≤ 4 := by
      rw [queue] at bounds
      exact Nat.le_of_succ_le bounds.1
    refine ⟨⟨shorter, bounds.2⟩, masks, fun full => ?_, taken, fun h => (nomatch h), waits⟩
    obtain held | halted := (replies full).2
    · exact (nomatch idle.symm.trans held)
    · exact (nomatch idle.symm.trans halted)
  next => exact fun taken => ⟨bounds, masks, replies, taken, held, waits⟩

/-- The transmitter begins the next frame: a link that would be in order but for what waits at its idle transmitter is
(R184). -/
theorem Link.InOrder.begin {a : Link} (bounds : a.requests.length ≤ 4 ∧ a.notices.length ≤ 16)
    (masks : inSet a.kindMask 1 = true ∧ inSet a.kindMask 14 = true)
    (replies : a.slot ≠ none → a.handler = .replyHeld ∨ a.handler = .halted)
        (idle : a.handler = .idle → a.requests = [])
    (held : a.handler = .replyHeld → a.slot ≠ none) (tod : Stamp) : (a.begin tod).InOrder := by
  unfold Link.begin
  split
  next sending =>
    have busy : a.tx ≠ none := sending ▸ Option.some_ne_none _
    exact ⟨bounds, masks, fun full => ⟨busy, replies full⟩, idle, held, fun _ => busy⟩
  next =>
    refine Link.InOrder.takeNext bounds masks (fun full => (full rfl).elim)
        (fun held => ?_) fun _ => Option.some_ne_none _
    dsimp only at held
    split at held
    · exact (nomatch held)
    · contradiction
  next n rest _ slot queue =>
    have shorter : rest.length + 1 ≤ 16 := by
      rw [queue] at bounds
      exact bounds.2
    unfold Link.reportLost
    split
    · exact ⟨⟨bounds.1, Nat.le_of_succ_le shorter⟩, masks, fun full => absurd slot full, idle, held,
        fun _ => Option.some_ne_none _⟩
    · refine ⟨⟨bounds.1, ?_⟩, masks, fun full => absurd slot full, idle, held, fun _ => Option.some_ne_none _⟩
      simpa only [Link.join, List.length_append, List.length_singleton] using shorter
  next slot queue => exact ⟨bounds, masks, fun full => absurd slot full, idle, held, fun some => absurd queue some⟩

theorem Link.begin_handler {a : Link} (h : a.slot ≠ none → a.tx ≠ none) (tod : Stamp) :
    (a.begin tod).handler = a.handler := by
  unfold Link.begin
  split
  next => rfl
  next idle slot => exact absurd idle (h (slot ▸ Option.some_ne_none _))
  next => unfold Link.reportLost; split <;> rfl
  next => rfl

/-- A notice leaves the link in order, and the request in hand in hand. -/
theorem Link.InOrder.notify {a : Link} (h : a.InOrder) (tod : Stamp) (n : Notice) :
    (a.notify tod n).InOrder ∧ (a.notify tod n).handler = a.handler := by
  unfold Link.notify
  split
  next =>
    split
    next room =>
      obtain ⟨bounds, masks, replies, idle, held, -⟩ := h
      have joined : (a.join tod n).notices.length ≤ 16 := by
        rw [Link.join, List.length_append, List.length_singleton]
        exact room
      exact ⟨Link.InOrder.begin (a := a.join tod n) ⟨bounds.1, joined⟩ masks
          (fun full => (replies full).2) idle held tod,
        Link.begin_handler (a := a.join tod n) (fun full => (replies full).1) tod⟩
    next => exact ⟨h, rfl⟩
  next => exact ⟨h, rfl⟩

/-- A request is offered (R178, R179). -/
theorem Link.InOrder.offer {a : Link} (h : a.InOrder) (q : Req) : (a.offer q).InOrder := by
  unfold Link.offer
  split
  next room =>
    obtain ⟨bounds, masks, replies, -, held, waits⟩ := h
    refine Link.InOrder.takeNext ⟨?_, bounds.2⟩ masks replies held waits
    rw [List.length_append, List.length_singleton]
    exact room
  next => exact h

/-- While a request is in hand no reply waits (R180, R181). -/
theorem Link.InOrder.unheld {a : Link} (h : a.InOrder) {q : Req} (handler : a.handler = .executing q) :
    a.slot = none := by
  obtain ⟨-, -, replies, -⟩ := h
  by_contra full
  obtain held | halted := (replies full).2
  · exact (nomatch handler.symm.trans held)
  · exact (nomatch handler.symm.trans halted)

/-- A reply is placed for the request in hand (R180, R184). -/
theorem Link.InOrder.place {a : Link} (h : a.InOrder) (tod : Stamp) (r : Reply) (halt : Bool) :
    (a.place tod r halt).InOrder := by
  obtain ⟨bounds, masks, -⟩ := h
  have handler : heldHandler halt = .replyHeld ∨ heldHandler halt = .halted := by
    cases halt
    · exact .inl rfl
    · exact .inr rfl
  refine Link.InOrder.begin (a := { a with slot := some r, handler := heldHandler halt }) bounds masks
      (fun _ => handler)
    (fun idle => ?_) (fun _ => Option.some_ne_none r) tod
  obtain held | halted := handler
  · exact (nomatch held.symm.trans idle)
  · exact (nomatch halted.symm.trans idle)

/-- The transmitter is taken for the reply of the request in hand (R184). -/
theorem Link.InOrder.reserve {a : Link} (h : a.InOrder) : a.reserve.InOrder := by
  obtain ⟨bounds, masks, replies, idle, held, -⟩ := h
  exact ⟨bounds, masks, fun full => ⟨Option.some_ne_none _, (replies full).2⟩, idle, held,
      fun _ => Option.some_ne_none _⟩

theorem Link.InOrder.sendReserved {a : Link} (h : a.InOrder) {q : Req} (handler : a.handler = .executing q) (r : Reply)
    (halt : Bool) : (a.sendReserved r halt).InOrder := by
  have unheld := h.unheld handler
  obtain ⟨bounds, masks, -⟩ := h
  refine Link.InOrder.takeNext bounds masks (fun full => absurd unheld full)
      (fun held => ?_) fun _ => Option.some_ne_none _
  dsimp only at held
  split at held <;> exact (nomatch held)

theorem Link.reset_inOrder (straps : BitVec 2) : (Link.reset straps).InOrder :=
  ⟨⟨Nat.zero_le _, Nat.zero_le _⟩, (by decide : inSet allKinds 1 = true ∧ inSet allKinds 14 = true),
      Link.reset_consistent straps⟩

/-! ### Bytes from the host (R174 to R176) -/

/-- Only the hunter, the instant of the last byte and the counters differ. -/
def Link.SameQueues (a b : Link) : Prop :=
  b = { a with hunter := b.hunter, lastByteAt := b.lastByteAt, counters := b.counters }

theorem Link.InOrder.hunts {a b : Link} (h : a.InOrder) (same : a.SameQueues b) : b.InOrder := by
  unfold Link.SameQueues at same
  rw [same]
  exact h

theorem Link.InOrder.expireBefore {a : Link} (h : a.InOrder) (now : Stamp) : (a.expireBefore now).InOrder := by
  unfold Link.expireBefore
  split
  · exact h.hunts rfl
  · exact h

theorem Link.InOrder.wholeFrame {a : Link} (h : a.InOrder) (length : Nat) (frame : List Byte) :
    (a.wholeFrame length frame).InOrder := by
  unfold Link.wholeFrame
  dsimp only
  split
  · exact h.hunts rfl
  · split
    · exact Link.InOrder.offer (a := { a with hunter := .hunt }) (h.hunts rfl) _
    · exact h.hunts rfl

theorem Link.InOrder.receive {a : Link} (h : a.InOrder) (b : Byte) : (a.receive b).InOrder := by
  unfold Link.receive
  split
  · split
    · exact h.hunts rfl
    · exact h
  · dsimp only
    split
    · exact h.hunts rfl
    · split <;> exact h.hunts rfl
  · dsimp only
    split
    · exact h.hunts rfl
    · exact h.wholeFrame _ _

theorem Link.InOrder.receiveBroken {a : Link} (h : a.InOrder) : a.receiveBroken.InOrder := by
  unfold Link.receiveBroken
  split
  · exact h
  all_goals exact h.hunts rfl

end Sys2Proof.Machine
end

section
/-! PROOFS. Events that leave store and records alone: lines, capture memory, match unit, openings and closings (R5 to
R14, R30 to R33, R42 to R44, R55 to R63, R73, R81 to R84). -/

namespace Sys2Proof.Machine

/-! ### What an event does to the link -/

/-- The link stays in order, and the request in hand in hand. -/
def State.Orderly (s t : State) : Prop := s.link.InOrder → t.link.InOrder ∧ t.link.handler = s.link.handler

theorem State.Orderly.of_eq {s t : State} (h : t.link = s.link) : s.Orderly t := by
  unfold State.Orderly
  rw [h]
  exact fun order => ⟨order, rfl⟩

theorem State.Orderly.refl (s : State) : s.Orderly s := .of_eq rfl

theorem State.Orderly.trans {s t u : State} (h : s.Orderly t) (g : t.Orderly u) : s.Orderly u := fun order =>
  have ⟨order', handler⟩ := h order
  have ⟨order'', handler'⟩ := g order'
  ⟨order'', handler'.trans handler⟩

theorem State.orderly_notify (s : State) (n : Notice) : s.Orderly (s.notify n) := fun order => order.notify s.time.tod n

theorem State.orderly_notifyAll (ns : List Notice) (s : State) : s.Orderly (s.notifyAll ns) := by
  induction ns generalizing s with
  | nil => exact .refl s
  | cons n rest ih => exact (s.orderly_notify n).trans (ih (s.notify n))

/-! ### Events outside the store -/

/-- An event leaves store and records alone and empties no incident slot. -/
structure State.SparesStore (s t : State) : Prop where
  store : t.store = s.store
  records : t.records = s.records
  slots : ∀ k, s.inc.table[(k : Fin 4)] ≠ none → t.inc.table[k] ≠ none
  orderly : s.Orderly t

theorem State.SparesStore.of_eq {s t : State} (store : t.store = s.store) (records : t.records = s.records)
    (table : t.inc.table = s.inc.table) (link : t.link = s.link) : s.SparesStore t :=
  ⟨store, records, fun k => by rw [table]; exact id, .of_eq link⟩

theorem State.SparesStore.refl (s : State) : s.SparesStore s := .of_eq rfl rfl rfl rfl

theorem State.SparesStore.trans {s t u : State} (h : s.SparesStore t) (g : t.SparesStore u) : s.SparesStore u :=
  ⟨g.store.trans h.store, g.records.trans h.records, fun k here => g.slots k (h.slots k here),
      h.orderly.trans g.orderly⟩

theorem State.spares_notify (s : State) (n : Notice) : s.SparesStore (s.notify n) :=
  ⟨rfl, rfl, fun _ => id, s.orderly_notify n⟩

theorem State.spares_modLine (s : State) (i : Fin 8) (f : Line → Line) : s.SparesStore (s.modLine i f) :=
  .of_eq rfl rfl rfl rfl

/-! ### The end of an event (R42 to R44, R93) -/

theorem State.spares_announce (old s : State) : s.SparesStore (State.announce old s) := by
  have orderly : s.Orderly (State.announce old s) :=
    State.Orderly.trans (t := s.evalEvtOut) (.of_eq rfl) (State.orderly_notifyAll _ _)
  rw [State.announce_only] at orderly ⊢
  exact ⟨rfl, rfl, fun _ => id, orderly⟩

theorem State.spares_setPressure (s : State) (on : Bool) : s.SparesStore (s.setPressure on) := by
  rw [State.setPressure_only]
  exact .of_eq rfl rfl rfl rfl

theorem State.spares_conclude (old s : State) : s.SparesStore (State.conclude old s) := by
  unfold State.conclude
  rw [State.evalPressure_eq]
  exact (s.spares_setPressure _).trans (State.spares_announce old _)

/-! ### Claims (R30 to R33) -/

theorem State.spares_keepRing (s : State) (i : Fin 8) (id : Nat) : s.SparesStore (s.keepRing i id) := by
  unfold State.keepRing
  split
  · split <;> exact .of_eq rfl rfl rfl rfl
  · exact .of_eq rfl rfl rfl rfl

theorem State.spares_keepFeed (s : State) (i : Fin 8) (id : Nat) : s.SparesStore (s.keepFeed i id) := by
  unfold State.keepFeed
  split
  · have appended : s.SparesStore ((s.append i id).modLine i fun l => l.suspendAt (s.capture.total i + 1)) :=
      .of_eq rfl rfl rfl rfl
    dsimp only
    split
    · exact appended.trans (State.spares_notify _ _)
    · exact appended
  · split
    · split <;> exact .of_eq rfl rfl rfl rfl
    · exact .refl s

theorem State.spares_keepClaim (s : State) (i : Fin 8) (id : Nat) : s.SparesStore (s.keepClaim i id) := by
  unfold State.keepClaim
  split
  · exact s.spares_keepRing i id
  · exact s.spares_keepFeed i id

/-! ### Openings, closings and arrivals (R73, R81 to R84) -/

/-- No slot is emptied where one takes an incident. -/
theorem Incidents.filled_set (u : Incidents) (k : Fin 4) (n : Incident) (j : Fin 4) (h : u.table[j] ≠ none) :
    (u.table.set k (some n))[j] ≠ none := by
  rw [vector_get_set]
  split
  · exact Option.some_ne_none n
  · exact h

/-- A slot takes an incident. -/
theorem State.SparesStore.of_set {s t : State} (k : Fin 4) (n : Incident) (store : t.store = s.store)
    (records : t.records = s.records) (table : t.inc.table = s.inc.table.set k (some n)) (link : t.link = s.link) :
    s.SparesStore t := by
  refine ⟨store, records, fun j here => ?_, .of_eq link⟩
  rw [table]
  exact s.inc.filled_set k n j here

theorem State.spares_closeIncident (s : State) (k : Fin 4) (r : CloseReason) : s.SparesStore (s.closeIncident k r) := by
  unfold State.closeIncident
  split
  · refine State.SparesStore.trans ?_ (State.spares_notify _ _)
    exact .of_set k _ rfl rfl rfl rfl
  · exact .refl s

theorem State.spares_openIncident (s : State) (r : OpenRequest) {t : State} (opened : s.openIncident r = some t) :
    s.SparesStore t := by
  unfold State.openIncident at opened
  split at opened
  next => exact (Option.some_ne_none t opened.symm).elim
  next k _ =>
    rw [← Option.some.inj opened]
    dsimp only
    split
    · refine State.SparesStore.trans ?_ (State.spares_closeIncident _ k .count)
      refine State.SparesStore.trans ?_ (State.spares_notify _ _)
      exact .of_set k _ rfl rfl rfl rfl
    · refine State.SparesStore.trans ?_ (State.spares_notify _ _)
      exact .of_set k _ rfl rfl rfl rfl

theorem State.spares_offerFrame (s : State) (id : Nat) (line : Fin 8) (k : Fin 4) :
    s.SparesStore (s.offerFrame id line k) := by
  unfold State.offerFrame
  split
  · exact .refl s
  · split
    · split
      · exact s.spares_closeIncident k .full
      · dsimp only
        split
        · refine State.SparesStore.trans ?_ (State.spares_closeIncident _ k .count)
          exact .of_set k _ rfl rfl rfl rfl
        · exact .of_set k _ rfl rfl rfl rfl
    · exact .refl s

theorem State.spares_arrive (s : State) (id : Nat) (line : Fin 8) : s.SparesStore (s.arrive id line) := by
  unfold State.arrive
  generalize s.inc.opened = ks
  induction ks generalizing s with
  | nil => exact .refl s
  | cons k rest ih => exact (s.spares_offerFrame id line k).trans (ih _)

/-! ### Open requests and classifications (R55 to R63) -/

theorem State.spares_putRequest (s : State) (r : OpenRequest) : s.SparesStore (s.putRequest r).1 := by
  unfold State.putRequest
  split
  next t opened => exact (s.spares_openIncident r opened).trans (.of_eq rfl rfl rfl rfl)
  next =>
    refine State.SparesStore.trans (t := { s with matcher := { s.matcher with missed := s.matcher.missed + 1 } }) ?_
      (State.spares_notify _ _)
    exact .of_eq rfl rfl rfl rfl

theorem State.spares_fire (s : State) (request : Fin 16 → OpenRequest) (es : List (Fin 16)) :
    s.SparesStore (s.fire request es).1 := by
  unfold State.fire
  generalize false = opened
  induction es generalizing s opened with
  | nil => exact .refl s
  | cons e rest ih => exact (s.spares_putRequest (request e)).trans (ih _ _)

theorem State.spares_classifyFrame (s : State) (i : Fin 8) (id : Nat) (f : Frame) :
    s.SparesStore (s.classifyFrame i id f) := by
  unfold State.classifyFrame
  dsimp only
  generalize s.matcher.evaluate (fun m e => m.matchesFrame e f (s.capture.frameBytes f) s.time.tod) f.start = r
  have matched : s.SparesStore
      { s with matcher := r.1, capture := s.capture.modFrame id fun f => { f with matchSet := r.2 } } :=
    .of_eq rfl rfl rfl rfl
  have fired := matched.trans (State.spares_fire _ (frameRequest i id f) (r.1.firing r.2))
  split
  · exact fired.trans (.of_eq rfl rfl rfl rfl)
  · exact (fired.trans (State.spares_arrive _ id i)).trans (State.spares_keepClaim _ i id)

/-! ### Characters and the idle timer (R5 to R14) -/

theorem State.spares_endFrame (s : State) (i : Fin 8) (cur : CurrentFrame) (last : Stamp) (cut broken : Bool) :
    s.SparesStore (s.endFrame i cur last cut broken) := by
  unfold State.endFrame
  split
  · split <;> exact .of_eq rfl rfl rfl rfl
  all_goals exact .of_eq rfl rfl rfl rfl

theorem State.spares_endToHunt (s : State) (i : Fin 8) (cur : CurrentFrame) (last : Stamp) (broken : Bool) :
    s.SparesStore (s.endToHunt i cur last broken) :=
  (s.spares_endFrame i cur last false broken).trans (State.spares_modLine _ i _)

theorem State.spares_frameByte (s : State) (i : Fin 8) (cur : CurrentFrame) (b : Byte) (errored : Bool) :
    s.SparesStore (s.frameByte i cur b errored).1 := by
  unfold State.frameByte
  split
  · exact .of_eq rfl rfl rfl rfl
  · split
    · exact (s.spares_endFrame i cur _ true false).trans (State.spares_modLine _ i _)
    · split
      · exact .of_eq rfl rfl rfl rfl
      · exact .of_eq rfl rfl rfl rfl

theorem State.spares_beginInHunt (s : State) (i : Fin 8) :
    s.SparesStore (if s.lines[i].reception = .hunt then s.modLine i (Line.begin s.time) else s) := by
  split
  · exact s.spares_modLine i _
  · exact .refl s

theorem State.spares_gapCharacter (s : State) (i : Fin 8) (b : Byte) (errored : Bool) :
    s.SparesStore (s.gapCharacter i b errored) := by
  unfold State.gapCharacter
  refine (s.spares_beginInHunt i).trans ?_
  generalize (if s.lines[i].reception = .hunt then s.modLine i (Line.begin s.time) else s) = t
  dsimp only
  split
  · exact t.spares_frameByte i _ b errored
  · exact .refl t

theorem State.spares_markedInside (s : State) (i : Fin 8) (cur : CurrentFrame) (b : Byte) (errored : Bool) :
    s.SparesStore (s.markedInside i cur b errored) := by
  unfold State.markedInside
  dsimp only
  split_ifs
  · exact (s.spares_modLine i _).trans (State.spares_frameByte _ i cur _ errored)
  · exact s.spares_frameByte i cur b errored
  · exact s.spares_endToHunt i cur _ false
  · exact (s.spares_endToHunt i cur _ true).trans (State.spares_modLine _ i _)
  · exact s.spares_modLine i _
  · exact s.spares_frameByte i cur b errored

theorem State.spares_markedCharacter (s : State) (i : Fin 8) (b : Byte) (errored : Bool) :
    s.SparesStore (s.markedCharacter i b errored) := by
  unfold State.markedCharacter
  split
  · exact s.spares_markedInside i _ b errored
  · exact s.spares_modLine i _
  · split
    · exact s.spares_modLine i _
    · exact .refl s
  · exact .refl s

theorem State.spares_countedEnd (s : State) (i : Fin 8) (cur : CurrentFrame) : s.SparesStore (s.countedEnd i cur) := by
  unfold State.countedEnd
  dsimp only
  split
  · exact .refl s
  · split_ifs
    · exact s.spares_endToHunt i cur _ true
    · exact s.spares_endToHunt i cur _ false
    · exact (s.spares_endFrame i cur _ true false).trans (State.spares_modLine _ i _)
    · exact .refl s

theorem State.spares_countedByte (s : State) (i : Fin 8) (cur : CurrentFrame) (b : Byte) (errored : Bool) :
    s.SparesStore (s.countedByte i cur b errored) := by
  unfold State.countedByte
  dsimp only
  refine (s.spares_frameByte i (s.lines[i].totalWith cur b) b errored).trans ?_
  split
  · exact State.spares_countedEnd _ i _
  · exact .refl _

theorem State.spares_countedCharacter (s : State) (i : Fin 8) (b : Byte) (errored : Bool) :
    s.SparesStore (s.countedCharacter i b errored) := by
  unfold State.countedCharacter
  split
  · exact s.spares_modLine i _
  · refine (s.spares_beginInHunt i).trans ?_
    generalize (if s.lines[i].reception = .hunt then s.modLine i (Line.begin s.time) else s) = t
    dsimp only
    split
    · exact t.spares_countedByte i _ b errored
    · exact .refl t

theorem State.spares_character (s : State) (i : Fin 8) (b : Byte) (errored : Bool) :
    s.SparesStore (s.character i b errored) := by
  unfold State.character
  split
  · exact s.spares_gapCharacter i b errored
  · exact s.spares_markedCharacter i b errored
  · exact s.spares_countedCharacter i b errored

theorem State.spares_endLineEvent (old s : State) (i : Fin 8) : s.SparesStore (State.endLineEvent old s i) :=
  (s.spares_modLine i _).trans (State.spares_conclude old _)

theorem State.spares_completeCharacter (s : State) (i : Fin 8) (bits : Byte) (parityBit stopHigh : Bool) :
    s.SparesStore (s.completeCharacter i bits parityBit stopHigh) := by
  unfold State.completeCharacter
  exact ((s.spares_modLine i _).trans (State.spares_character _ i _ _)).trans (State.spares_endLineEvent s _ i)

theorem State.spares_idleExpires (s : State) (i : Fin 8) : s.SparesStore (s.idleExpires i) := by
  unfold State.idleExpires
  refine State.SparesStore.trans ?_ (State.spares_endLineEvent s _ i)
  refine (s.spares_modLine i fun l => { l with idle := none }).trans ?_
  split
  · exact State.spares_endToHunt _ i _ _ _
  · exact State.spares_modLine _ i _
  · exact .refl _

end Sys2Proof.Machine
end

section
/-! PROOFS. The guard of the array through the reservation of a commit and the arbiter (R100, R101, R107, R111, R125 to
R128). -/

namespace Sys2Proof.Machine

/-! ### Sector tables (R100, R106, R111) -/

/-- OPEN sectors and sectors with erase pending are UNLOCKED. -/
def Store.Shielded (st : Store) : Prop := ∀ x : Fin 64,
  st.sectors[x].state = .opened ∨ st.sectors[x].pending = true → st.sectors[x].protection = .unlocked

/-- Sectors named by host work are UNLOCKED. -/
def Store.WorkShielded (st : Store) : Prop := ∀ i ∈ st.work, st.sectors[i.sector].protection = .unlocked

def Store.OneOpen (st : Store) : Prop := ∀ x y : Fin 64,
  st.sectors[x].state = .opened → st.sectors[y].state = .opened → x = y

def Store.NoneOpen (st : Store) : Prop := ∀ x : Fin 64, st.sectors[x].state ≠ .opened

/-- A sector keeps its protection, does not become OPEN, and erase pending is set on an UNLOCKED one alone. -/
structure Sector.Eases (v w : Sector) : Prop where
  protection : w.protection = v.protection
  opened : w.state = .opened → v.state = .opened
  pending : w.pending = true → v.pending = true ∨ v.protection = .unlocked

def Store.Eases (a b : Store) : Prop := ∀ x : Fin 64, (a.sectors[x]).Eases b.sectors[x]

theorem Sector.Eases.refl (v : Sector) : v.Eases v := ⟨rfl, id, .inl⟩

theorem Sector.Eases.trans {u v w : Sector} (h : u.Eases v) (g : v.Eases w) : u.Eases w :=
  ⟨g.protection.trans h.protection, fun o => h.opened (g.opened o),
    fun p => (g.pending p).elim h.pending fun unlocked => .inr (h.protection ▸ unlocked)⟩

theorem Store.Eases.refl (a : Store) : a.Eases a := fun _ => .refl _

theorem Store.Eases.trans {a b c : Store} (h : a.Eases b) (g : b.Eases c) : a.Eases c := fun x => (h x).trans (g x)

theorem Store.Shielded.eased {a b : Store} (h : a.Shielded) (g : a.Eases b) : b.Shielded := by
  intro x raised
  rw [(g x).protection]
  obtain opened | pending := raised
  · exact h x (.inl ((g x).opened opened))
  · exact ((g x).pending pending).elim (fun p => h x (.inr p)) id

theorem Store.WorkShielded.eased {a b : Store} (h : a.WorkShielded) (g : a.Eases b) (work : b.work ⊆ a.work) :
    b.WorkShielded := fun i named => (g i.sector).protection.trans (h i (work named))

theorem Store.OneOpen.eased {a b : Store} (h : a.OneOpen) (g : a.Eases b) : b.OneOpen :=
  fun x y hx hy => h x y ((g x).opened hx) ((g y).opened hy)

theorem Store.NoneOpen.eased {a b : Store} (h : a.NoneOpen) (g : a.Eases b) : b.NoneOpen :=
  fun x hx => h x ((g x).opened hx)

theorem Store.NoneOpen.oneOpen {a : Store} (h : a.NoneOpen) : a.OneOpen := fun x _ hx => absurd hx (h x)

theorem Sector.eases_settle (v : Sector) : v.Eases v.settle := by
  unfold Sector.settle
  split
  next candidate =>
    refine ⟨rfl, id, fun _ => .inr ?_⟩
    unfold Sector.reclaimable at candidate
    rw [Bool.and_eq_true, beq_iff_eq] at candidate
    exact candidate.1
  next => exact .refl v

theorem Sector.Eases.settled {v w : Sector} (h : v.Eases w) : v.Eases w.settle := h.trans w.eases_settle

theorem Sector.eases_close (v : Sector) : v.Eases v.close := by
  unfold Sector.close
  split
  · refine Sector.Eases.settled ?_
    exact ⟨rfl, fun h => (nomatch h), .inl⟩
  · exact .refl v

theorem Sector.eases_spoilt (v : Sector) : v.Eases v.spoilt := by
  refine Sector.Eases.settled ?_
  exact ⟨rfl, fun h => (nomatch h), .inl⟩

theorem Sector.eases_startErase (v : Sector) : v.Eases v.startErase := ⟨rfl, fun h => (nomatch h), fun h => (nomatch h)⟩

theorem Sector.eases_erasedWell (v : Sector) : v.Eases v.erasedWell := ⟨rfl, fun h => (nomatch h), .inl⟩

theorem Sector.eases_erasedBadly (key : Nat) (v : Sector) : v.Eases (v.erasedBadly key) :=
    ⟨rfl, fun h => (nomatch h), .inl⟩

theorem State.eases_modSector (s : State) (x : Fin 64) {f : Sector → Sector}
    (h : (s.store.sectors[x]).Eases (f s.store.sectors[x])) : s.store.Eases (s.modSector x f).store := by
  intro y
  by_cases here : y = x
  · subst here; rw [State.modSector_same]; exact h
  · rw [State.modSector_other s x y here]; exact .refl _

/-! ### The guard, by its parts -/

/-- The parts of `State.arrayGuarded` that concern the table and the host work list, in a READY store. -/
structure State.TableGuarded (s : State) : Prop where
  shielded : s.store.Shielded
  work : s.store.WorkShielded
  ready : s.store.state = .ready

/-- What an event makes of the array: guarded, READY, and with one OPEN sector at most where that was so. -/
structure State.Secures (s t : State) : Prop where
  guarded : t.arrayGuarded
  ready : t.store.state = .ready
  oneOpen : s.store.OneOpen → t.oneOpenSector

theorem State.Secures.eased {s t u : State} (h : t.Secures u) (g : s.store.Eases t.store) : s.Secures u :=
  ⟨h.guarded, h.ready, fun one => h.oneOpen (one.eased g)⟩

section
variable {s : State}

theorem State.opGuarded_none (op : s.store.op = none) : s.opGuarded := by
  unfold State.opGuarded
  rw [op]
  trivial

theorem State.opGuarded_erase {e : EraseOp} (op : s.store.op = some (.erase e)) : s.opGuarded ↔
    s.store.sectors[e.sector].state = .erasing ∧ s.store.sectors[e.sector].protection = .unlocked
      ∧ (s.store.holder = some .commit ↔ e.cause = .overwrite)
      ∧ (e.cause = .overwrite → ∀ c, s.records.commit = some c → c.phase = .reservation none) := by
  unfold State.opGuarded
  rw [op]

theorem State.opGuarded_program {p : ProgramOp} (op : s.store.op = some (.program p)) : s.opGuarded ↔
    s.store.sectors[p.sector].protection = .unlocked
      ∧ (if p.cause = .commit then s.store.holder = some .commit ∧ s.commitSector p.sector = true
         else s.store.holder = some .hostItem) := by
  unfold State.opGuarded
  rw [op]

theorem State.commitGuarded_none (commit : s.records.commit = none) : s.commitGuarded := by
  unfold State.commitGuarded
  rw [commit]
  trivial

/-- What the phase of a commit says of the array. -/
def State.phaseGuarded (s : State) : CommitPhase → Prop
  | .reservation none => True
  | .reservation (some (x, _)) => ∃ p, s.store.op = some (.program p) ∧ p.sector = x ∧ p.cause = .commit
  | .programming p => s.store.sectors[p.sector].state = .opened

theorem State.commitGuarded_some {c : Commit} (commit : s.records.commit = some c) : s.commitGuarded ↔
    s.store.holder = some .commit ∧ (∀ k, c.incident = some k → s.inc.table[k] ≠ none)
      ∧ (c.waiting = true → s.store.op = none) ∧ s.phaseGuarded c.phase := by
  unfold State.commitGuarded
  rw [commit]
  rfl

theorem State.commitSector_opened {x : Fin 64} (holder : s.store.holder = some .commit)
    (opened : s.store.sectors[x].state = .opened) : s.commitSector x = true := by
  unfold State.commitSector
  rw [holder, opened]
  rfl

theorem State.commitSector_unheld (x : Fin 64) (holder : s.store.holder ≠ some .commit) : s.commitSector x = false := by
  unfold State.commitSector
  rw [beq_false_of_ne holder]
  rfl

theorem Records.opening_none {r : Records} (commit : r.commit = none) : r.opening = none := by
  unfold Records.opening
  rw [commit]
  rfl

theorem Records.opening_phase {r : Records} {c : Commit} (commit : r.commit = some c)
    (phase : ∀ o, c.phase ≠ .reservation (some o)) : r.opening = none := by
  unfold Records.opening
  rw [commit, Option.bind_some]
  split
  next o _ h => exact (phase _ h).elim
  next => rfl

theorem State.oneOpen_of (one : s.store.OneOpen) (opening : s.records.opening = none) : s.oneOpenSector :=
  ⟨one, fun h => absurd opening h⟩

/-- Between two operations of the array: none in progress, or an erase that no holder waits for. -/
def Store.OnlyStray (st : Store) : Prop := ∀ o, st.op = some o →
  ∃ e, o = .erase e ∧ st.sectors[e.sector].state = .erasing ∧ st.sectors[e.sector].protection = .unlocked
    ∧ e.cause ≠ .overwrite

theorem Store.onlyStray_none {st : Store} (op : st.op = none) : st.OnlyStray :=
  fun _ h => (Option.some_ne_none _ (h.symm.trans op)).elim

/-- The array guarded without a commit and its hold. -/
theorem State.TableGuarded.released (h : s.TableGuarded) (stray : s.store.OnlyStray)
    (holder : s.store.holder ≠ some .commit) (commit : s.records.commit = none) : s.Secures s := by
  refine ⟨⟨h.shielded, h.work, ?_, State.commitGuarded_none commit, fun scanning => ?_⟩, h.ready,
    fun one => State.oneOpen_of one (Records.opening_none commit)⟩
  · cases op : s.store.op with
    | none => exact State.opGuarded_none op
    | some o =>
      obtain ⟨e, rfl, erasing, unlocked, cause⟩ := stray o op
      exact (State.opGuarded_erase op).mpr ⟨erasing, unlocked, ⟨fun h => absurd h holder, fun h => absurd h cause⟩,
        fun h => absurd h cause⟩
  · exact (nomatch h.ready.symm.trans scanning)

/-- The array held for a commit, its incident in the table. -/
structure State.HeldFor (s : State) (c : Commit) : Prop extends State.TableGuarded s where
  holder : s.store.holder = some .commit
  slots : ∀ k, c.incident = some k → s.inc.table[k] ≠ none

/-- The guard of an array held for a commit, from what its operation and its phase ask for. -/
theorem State.HeldFor.guarded {c : Commit} (h : s.HeldFor c) (commit : s.records.commit = some c) (op : s.opGuarded)
    (waits : c.waiting = true → s.store.op = none) (phase : s.phaseGuarded c.phase) : s.arrayGuarded :=
  ⟨h.shielded, h.work, op, (State.commitGuarded_some commit).mpr ⟨h.holder, h.slots, waits, phase⟩,
    fun scanning => (nomatch h.ready.symm.trans scanning)⟩

/-- Only sectors and work of the table matter, and its state. -/
theorem State.TableGuarded.eased {t : State} (h : s.TableGuarded) (g : s.store.Eases t.store)
    (work : t.store.work ⊆ s.store.work) (state : t.store.state = s.store.state) : t.TableGuarded :=
  ⟨h.shielded.eased g, h.work.eased g work, state.trans h.ready⟩

theorem State.HeldFor.eased {t : State} {c d : Commit} (h : s.HeldFor c) (g : s.store.Eases t.store)
    (work : t.store.work ⊆ s.store.work) (state : t.store.state = s.store.state)
    (holder : t.store.holder = s.store.holder) (incident : d.incident = c.incident)
    (slots : ∀ k, s.inc.table[(k : Fin 4)] ≠ none → t.inc.table[k] ≠ none) : t.HeldFor d :=
  ⟨h.toTableGuarded.eased g work state, holder.trans h.holder, fun k here => slots k (h.slots k (incident ▸ here))⟩

end

/-! ### Erases begin (R104) -/

section
variable {s : State}

theorem State.eases_startErase (s : State) (x : Fin 64) (cause : Cause) : s.store.Eases (s.startErase x cause).store :=
  s.eases_modSector x (Sector.eases_startErase _)

theorem State.startErase_sector (s : State) (x : Fin 64) (cause : Cause) :
    (s.startErase x cause).store.sectors[x] = s.store.sectors[x].startErase := s.modSector_same x _

theorem State.startErase_work (s : State) (x : Fin 64) (cause : Cause) :
    (s.startErase x cause).store.work ⊆ s.store.work := List.filter_subset_self _

/-- A host or background erase begins in an UNLOCKED sector. -/
theorem State.secures_startErase (h : s.TableGuarded) {x : Fin 64}
    (unlocked : s.store.sectors[x].protection = .unlocked)
    (holder : s.store.holder ≠ some .commit) (commit : s.records.commit = none) {cause : Cause}
    (cause_ne : cause ≠ .overwrite) : s.Secures (s.startErase x cause) := by
  have eases := s.eases_startErase x cause
  refine State.Secures.eased ?_ eases
  refine (h.eased eases (s.startErase_work x cause) rfl).released (fun o op => ?_) holder commit
  refine ⟨_, (Option.some.inj op).symm, ?_, ?_, cause_ne⟩
  · rw [State.startErase_sector]; rfl
  · rw [State.startErase_sector]; exact unlocked

/-! ### The steps of the reservation (R125 to R129, R132) -/

variable {c : Commit}

/-- The step waits for a record read (R102). -/
theorem State.HeldFor.waits (h : s.HeldFor c) (op : s.store.op = none) (phase : s.phaseGuarded c.phase)
    (unopening : ∀ o, c.phase ≠ .reservation (some o)) : s.Secures (s.setCommit { c with waiting := true }) := by
  have held : (s.setCommit { c with waiting := true }).HeldFor { c with waiting := true } :=
    h.eased (.refl _) (List.Subset.refl _) rfl rfl rfl fun _ => id
  exact ⟨held.guarded rfl (State.opGuarded_none op) (fun _ => op) phase, h.ready,
    fun one => State.oneOpen_of one (Records.opening_phase rfl unopening)⟩

/-- A unit of a record begins in the OPEN sector. -/
theorem State.HeldFor.unitBegun (h : s.HeldFor c) {g : Programming} (opened : s.store.sectors[g.sector].state = .opened)
    (u : UnitKind) (offset : Nat) (bytes : List Byte) : s.Secures (s.unitBegun c g u offset bytes) := by
  have held : (s.unitBegun c g u offset bytes).HeldFor
      { c with phase := .programming { g with unit := u }, waiting := false } :=
    h.eased (.refl _) (List.Subset.refl _) rfl rfl rfl fun _ => id
  have op : (s.unitBegun c g u offset bytes).opGuarded := by
    rw [State.opGuarded_program (p := ⟨g.sector, offset, bytes, .commit, some g.serial, s.time.elapsed⟩) rfl]
    exact ⟨h.shielded g.sector (.inl opened), h.holder, State.commitSector_opened h.holder opened⟩
  exact ⟨held.guarded rfl op (fun waits => (nomatch waits)) opened, h.ready,
    fun one => State.oneOpen_of one (Records.opening_phase rfl fun _ => CommitPhase.noConfusion)⟩

theorem State.startRecordUnit_begins (s : State) (i : Incident) (c : Commit) (g : Programming) :
    ∃ u offset bytes, s.startRecordUnit i c g = s.unitBegun c g u offset bytes := by
  unfold State.startRecordUnit
  dsimp only
  split <;> exact ⟨_, _, _, rfl⟩

theorem State.unitBoundary_begins (k : Fin 4) (c : Commit) (g : Programming) (here : s.inc.table[k] ≠ none) :
    ∃ u offset bytes, s.unitBoundary k c g = s.unitBegun c g u offset bytes := by
  unfold State.unitBoundary
  split
  next absent => exact absurd absent here
  next n _ =>
    split
    · exact ⟨_, _, _, rfl⟩
    · exact s.startRecordUnit_begins n c g

theorem Store.openSector_some {st : Store} {x : Fin 64} (h : st.openSector = some x) :
    st.sectors[x].state = .opened := by
  have found := List.find?_some h
  exact beq_iff_eq.mp found

theorem State.secures_placeRecord (h : s.HeldFor c) {k : Fin 4} (incident : c.incident = some k) {x : Fin 64}
    (opened : s.store.openSector = some x) (offset : Nat) (idle : s.store.read ≠ none → s.store.op = none) :
    s.Secures (s.placeRecord k c x offset) := by
  have opened := Store.openSector_some opened
  obtain ⟨n, here⟩ := Option.ne_none_iff_exists'.mp (h.slots k incident)
  have held : (s.committing k n).HeldFor c :=
    h.eased (.refl _) (List.Subset.refl _) rfl rfl rfl (s.inc.filled_set k _)
  rw [State.placeRecord_eq here]
  by_cases served : s.store.read = none
  · rw [State.whenServed_now (s.committing k n) _ _ served]
    obtain ⟨u, offset', bytes, run⟩ := (s.committing k n).startRecordUnit_begins (n.committing s.records.nextSerial) c
      ⟨s.records.nextSerial, x, offset, 0, 0, .record 0⟩
    rw [run]
    have begun := held.unitBegun (g := ⟨s.records.nextSerial, x, offset, 0, 0, .record 0⟩) opened u offset' bytes
    exact ⟨begun.guarded, begun.ready, begun.oneOpen⟩
  · rw [State.whenServed_later (s.committing k n) _ _ served]
    have waits := State.HeldFor.waits
        (c := { c with phase := .programming ⟨s.records.nextSerial, x, offset, 0, 0, .record 0⟩ })
      (held.eased (.refl _) (List.Subset.refl _) rfl rfl rfl fun _ => id) (idle served) opened
      (fun _ => CommitPhase.noConfusion)
    exact ⟨waits.guarded, waits.ready, waits.oneOpen⟩

theorem Store.toOverwrite_some {st : Store} {x : Fin 64} (h : st.toOverwrite = some x) :
    st.sectors[x].protection = .unlocked := by
  have picked (l : List (Fin 64)) (a : Fin 64) : l.foldl st.older a = a ∨ l.foldl st.older a ∈ l := by
    induction l generalizing a with
    | nil => exact .inl rfl
    | cons b rest ih =>
      have first : st.older a b = a ∨ st.older a b = b := by
        unfold Store.older
        split
        · exact .inr rfl
        · exact .inl rfl
      obtain same | later := ih (st.older a b)
      · rw [List.foldl_cons, same]
        obtain e | e := first
        · exact .inl e
        · exact .inr (by rw [e]; exact List.mem_cons_self)
      · exact .inr (List.mem_cons_of_mem _ later)
  unfold Store.toOverwrite at h
  split at h
  next => exact (Option.some_ne_none x h.symm).elim
  next a rest candidates =>
    have member : x ∈ a :: rest := by
      rw [← Option.some.inj h]
      obtain e | later := picked rest a
      · rw [e]; exact List.mem_cons_self
      · exact List.mem_cons_of_mem _ later
    rw [← candidates, List.mem_filter, Bool.and_eq_true, beq_iff_eq, beq_iff_eq] at member
    exact member.2.2

theorem State.secures_commitOverwrites (h : s.HeldFor c) {x : Fin 64} (victim : s.store.toOverwrite = some x) :
    s.Secures (s.commitOverwrites c x) := by
  let gone := lengthsOf (s.records.index.filter fun e => e.sector == x)
  let dead := s.modSector x fun v => { v with dead := v.dead + gone }
  have first : s.store.Eases dead.store := s.eases_modSector x ⟨rfl, id, .inl⟩
  have eases : s.store.Eases (s.commitOverwrites c x).store := first.trans (dead.eases_startErase x .overwrite)
  have sector : (s.commitOverwrites c x).store.sectors[x] = dead.store.sectors[x].startErase :=
    dead.startErase_sector x .overwrite
  have held : (s.commitOverwrites c x).HeldFor { c with phase := .reservation none, waiting := false } :=
    h.eased eases (dead.startErase_work x .overwrite) rfl rfl rfl fun _ => id
  refine ⟨held.guarded rfl ((State.opGuarded_erase rfl).mpr
      ⟨?_, ?_, ⟨fun _ => rfl, fun _ => h.holder⟩, fun _ d hd => ?_⟩)
    (fun waits => (nomatch waits)) trivial, h.ready,
    fun one => State.oneOpen_of (one.eased eases) (Records.opening_phase rfl fun _ h => (nomatch h))⟩
  · exact congrArg Sector.state sector
  · exact (eases x).protection.trans (Store.toOverwrite_some victim)
  · rw [← Option.some.inj hd]

theorem Store.toOpen_some {st : Store} {x : Fin 64} (h : st.toOpen = some x) :
    st.sectors[x].protection = .unlocked := by
  have found := List.find?_some h
  simp only [Bool.and_eq_true, beq_iff_eq] at found
  exact found.1.2

/-- The header of a sector that the commit opens; no other is OPEN (R127). -/
theorem State.guarded_commitOpens (h : s.HeldFor c) {x : Fin 64} (found : s.store.toOpen = some x) :
    (s.commitOpens c x).arrayGuarded ∧ (s.store.NoneOpen → (s.commitOpens c x).oneOpenSector) := by
  have held : (s.commitOpens c x).HeldFor
      { c with phase := .reservation (some (x, s.store.nextSeq)), waiting := false } :=
    h.eased (.refl _) (List.Subset.refl _) rfl rfl rfl fun _ => id
  have opening : (s.commitOpens c x).records.opening = some x := rfl
  have holder : (s.commitOpens c x).store.holder = some .commit := h.holder
  have op : (s.commitOpens c x).opGuarded := by
    rw [State.opGuarded_program (p := ⟨x, 0, sectorHeader s.store.nextSeq, .commit, none, s.time.elapsed⟩) rfl]
    refine ⟨Store.toOpen_some found, holder, ?_⟩
    unfold State.commitSector
    rw [opening, holder, beq_self_eq_true, beq_self_eq_true, Bool.or_true, Bool.and_self]
  exact ⟨held.guarded rfl op (fun waits => (nomatch waits)) ⟨_, rfl, rfl, rfl⟩,
      fun none => ⟨none.oneOpen, fun _ => none⟩⟩

theorem State.noRoom_store (s : State) (k : Fin 4) (c : Commit) (r : FullReason) :
    (s.noRoom k c r).store = { s.store with holder := none } ∧ (s.noRoom k c r).records.commit = none := by
  unfold State.noRoom
  dsimp only
  split <;> exact ⟨rfl, rfl⟩

theorem State.secures_noRoom (h : s.TableGuarded) (stray : s.store.OnlyStray) (k : Fin 4) (c : Commit)
    (r : FullReason) :
    s.Secures (s.noRoom k c r) := by
  obtain ⟨store, commit⟩ := s.noRoom_store k c r
  have eases : s.store.Eases (s.noRoom k c r).store := by rw [store]; exact .refl _
  refine State.Secures.eased (State.TableGuarded.released ?_ ?_ ?_ commit) eases
  · exact h.eased eases (by rw [store]; exact List.Subset.refl _) (by rw [store])
  · rw [store]; exact stray
  · rw [store]; exact fun h => (nomatch h)

/-! ### The reservation (R125) -/

/-- What a reservation does: it finds no room; overwrites a sector; opens one, with none OPEN; or has its place in the
OPEN sector. -/
theorem State.reserve_cases (s : State) (k : Fin 4) (c : Commit) :
    (∃ u r, (u = s ∨ u = s.closeOpen) ∧ s.reserve k c = u.noRoom k c r)
    ∨ (∃ u x, (u = s ∨ u = s.closeOpen) ∧ u.store.toOverwrite = some x
        ∧ s.reserve k c = u.whenServed c fun v => v.commitOverwrites c x)
    ∨ (∃ x, s.closeOpen.store.toOpen = some x ∧ s.reserve k c = s.closeOpen.whenServed c fun v => v.commitOpens c x)
    ∨ ∃ x offset, s.store.openSector = some x ∧ s.reserve k c = s.placeRecord k c x offset := by
  have overwrites (u : State) (r : FullReason) (from_ : u = s ∨ u = s.closeOpen)
      (run : s.reserve k c = u.overwriteOr k c r) :
      (∃ u r, (u = s ∨ u = s.closeOpen) ∧ s.reserve k c = u.noRoom k c r)
      ∨ ∃ u x, (u = s ∨ u = s.closeOpen) ∧ u.store.toOverwrite = some x
        ∧ s.reserve k c = u.whenServed c fun v => v.commitOverwrites c x := by
    unfold State.overwriteOr at run
    split at run
    next x victim =>
      unfold State.victim at victim
      split at victim
      · exact .inr ⟨u, x, from_, victim, run⟩
      · exact (Option.some_ne_none x victim.symm).elim
    next => exact .inl ⟨u, r, from_, run⟩
  by_cases last : s.records.nextSerial = 0xFFFFFFFF#32
  · exact .inl ⟨s, .serials, .inl rfl, State.reserve_noSerial last⟩
  by_cases full : 1024 ≤ s.records.index.length
  · exact (overwrites s .index (.inl rfl) (State.reserve_indexFull last full)).imp_right .inl
  by_cases fits : ∃ x, s.store.openSector = some x ∧ c.size ≤ s.store.sectors[x].room
  · obtain ⟨x, opened, room⟩ := fits
    exact .inr (.inr (.inr ⟨x, _, opened, State.reserve_fits last (Nat.not_le.mp full) opened room⟩))
  have closes := State.reserve_closes (k := k) (c := c) last (Nat.not_le.mp full) fits
  cases found : s.closeOpen.store.toOpen with
  | none =>
    rw [State.findSector_none found] at closes
    exact (overwrites s.closeOpen .sector (.inr rfl) closes).imp_right .inl
  | some x =>
    unfold State.findSector at closes
    rw [found] at closes
    exact .inr (.inr (.inl ⟨x, rfl, closes⟩))

theorem State.eases_closeOpen (s : State) : s.store.Eases s.closeOpen.store := by
  unfold State.closeOpen
  split
  · exact s.eases_modSector _ (Sector.eases_close _)
  · exact .refl _

/-- Once the OPEN sector is closed none is OPEN. -/
theorem State.closeOpen_noneOpen (s : State) (one : s.store.OneOpen) : s.closeOpen.store.NoneOpen := by
  unfold State.closeOpen
  split
  next x opened =>
    intro y here
    by_cases same : y = x
    · subst same
      rw [State.modSector_same] at here
      exact Sector.close_unopened _ here
    · rw [State.modSector_other s x y same] at here
      exact same (one y x here (Store.openSector_some opened))
  next absent =>
    intro y here
    have unopened := List.find?_eq_none.mp absent y (List.mem_finRange y)
    exact unopened (beq_iff_eq.mpr here)

theorem State.closeOpen_stray (h : s.store.OnlyStray) : s.closeOpen.store.OnlyStray := by
  have only := s.closeOpen_sectorsOnly
  have op : s.closeOpen.store.op = s.store.op := by rw [only]
  intro o here
  obtain ⟨e, rfl, erasing, unlocked, cause⟩ := h o (op ▸ here)
  have same : s.closeOpen.store.sectors[e.sector] = s.store.sectors[e.sector] := by
    unfold State.closeOpen
    split
    next x opened =>
      refine s.modSector_other x e.sector (fun e' => ?_) _
      subst e'
      exact (nomatch (Store.openSector_some opened).symm.trans erasing)
    next => rfl
  exact ⟨e, rfl, same ▸ erasing, same ▸ unlocked, cause⟩

/-- A reservation leaves the array guarded. -/
theorem State.secures_reserve (h : s.HeldFor c) (stray : s.store.OnlyStray) {k : Fin 4} (incident : c.incident = some k)
    (phase : c.phase = .reservation none) (idle : s.store.read ≠ none → s.store.op = none) :
    s.Secures (s.reserve k c) := by
  have only := s.closeOpen_sectorsOnly
  have closedHeld : s.closeOpen.HeldFor c := by
    refine h.eased s.eases_closeOpen ?_ ?_ ?_ rfl ?_
    all_goals rw [only]
    · exact List.Subset.refl _
    · exact fun _ => id
  have closedIdle : s.closeOpen.store.read ≠ none → s.closeOpen.store.op = none := by
    rw [only]
    exact idle
  have either (u : State) (from_ : u = s ∨ u = s.closeOpen) :
      u.HeldFor c ∧ u.store.OnlyStray ∧ s.store.Eases u.store ∧ (u.store.read ≠ none → u.store.op = none) := by
    obtain rfl | rfl := from_
    · exact ⟨h, stray, .refl _, idle⟩
    · exact ⟨closedHeld, State.closeOpen_stray stray, s.eases_closeOpen, closedIdle⟩
  have waits (u : State) (held : u.HeldFor c) (op : u.store.op = none) :
      u.Secures (u.setCommit { c with waiting := true }) :=
    held.waits op (by rw [phase]; trivial) (by rw [phase]; exact fun _ h => (nomatch h))
  obtain ⟨u, r, from_, run⟩ | ⟨u, x, from_, victim, run⟩ | ⟨x, found, run⟩ | ⟨x, offset, opened, run⟩ :=
      s.reserve_cases k c
  all_goals rw [run]
  · obtain ⟨held, stray, eases, -⟩ := either u from_
    exact (State.secures_noRoom held.toTableGuarded stray k c r).eased eases
  · obtain ⟨held, -, eases, idle⟩ := either u from_
    unfold State.whenServed
    split
    next => exact (State.secures_commitOverwrites held victim).eased eases
    next reading => exact (waits u held (idle reading)).eased eases
  · unfold State.whenServed
    split
    next =>
      obtain ⟨guarded, one⟩ := State.guarded_commitOpens closedHeld found
      exact ⟨guarded, closedHeld.ready, fun open_ => one (s.closeOpen_noneOpen open_)⟩
    next reading => exact (waits _ closedHeld (closedIdle reading)).eased s.eases_closeOpen
  · exact State.secures_placeRecord h incident opened offset idle

/-- And so does the re-check, its incident cancelled or not (R125, R131). -/
theorem State.secures_recheck (h : s.HeldFor c) (op : s.store.op = none)
    (phase : c.incident ≠ none → c.phase = .reservation none) : s.Secures (s.recheck c) := by
  unfold State.recheck
  split
  next =>
    have guarded : s.endCommit.TableGuarded := h.toTableGuarded.eased (.refl _) (List.Subset.refl _) rfl
    have released := guarded.released (Store.onlyStray_none op) (fun h => (nomatch h)) rfl
    exact ⟨released.guarded, released.ready, released.oneOpen⟩
  next k incident =>
    exact State.secures_reserve h (Store.onlyStray_none op) incident
        (phase (incident ▸ Option.some_ne_none k)) fun _ => op

end

end Sys2Proof.Machine
end

section
/-! PROOFS. What the arbiter, the ends of operations and reads keep of the array and the link (R97 to R102, R105, R107,
R133 to R135). -/

namespace Sys2Proof.Machine

/-! ### Events that keep the array guarded -/

/-- The array stays guarded, and at most one sector OPEN where that was so. -/
def State.KeepsArray (s t : State) : Prop := s.arrayGuarded → t.arrayGuarded ∧ (s.oneOpenSector → t.oneOpenSector)

theorem State.KeepsArray.trans {s t u : State} (h : s.KeepsArray t) (g : t.KeepsArray u) : s.KeepsArray u :=
    fun guarded =>
  have ⟨guarded', one⟩ := h guarded
  have ⟨guarded'', one'⟩ := g guarded'
  ⟨guarded'', fun o => one' (one o)⟩

theorem State.Secures.keeps {s t : State} (h : s.Secures t) : t.arrayGuarded ∧ (s.oneOpenSector → t.oneOpenSector) :=
  ⟨h.guarded, fun one => h.oneOpen one.1⟩

theorem State.Secures.trans {s t u : State} (h : s.Secures t) (g : t.Secures u) : s.Secures u :=
  ⟨g.guarded, g.ready, fun one => g.oneOpen (h.oneOpen one).1⟩

/-- The store stays as it is; a commit keeps phase and wait, and loses its incident if anything of it. -/
theorem State.KeepsArray.of_commit {s t : State} {f : Commit → Commit} (store : t.store = s.store)
    (commit : t.records.commit = s.records.commit.map f) (same : ∀ c, (f c).phase = c.phase ∧ (f c).waiting = c.waiting)
    (slots : ∀ c k, (f c).incident = some k → c.incident = some k ∧ (s.inc.table[k] ≠ none → t.inc.table[k] ≠ none)) :
    s.KeepsArray t := by
  intro ⟨shielded, work, op, guarded, scanning⟩
  have phase {d : Commit} (named : t.records.commit = some d) : ∃ c, s.records.commit = some c ∧ d = f c := by
    rw [commit] at named
    obtain ⟨c, here, rfl⟩ := Option.map_eq_some_iff.mp named
    exact ⟨c, here, rfl⟩
  have opening : t.records.opening = s.records.opening := by
    unfold Records.opening
    rw [commit]
    cases s.records.commit with
    | none => rfl
    | some c => simp only [Option.map_some, Option.bind_some, (same c).1]
  have sector (x : Fin 64) : t.commitSector x = s.commitSector x := by
    unfold State.commitSector
    rw [store, opening]
  refine ⟨⟨by rw [store]; exact shielded, by rw [store]; exact work, ?_, ?_, ?_⟩, fun one => ?_⟩
  · cases here : s.store.op with
    | none => exact State.opGuarded_none (store ▸ here)
    | some o =>
      cases o with
      | erase e =>
        obtain ⟨erasing, unlocked, cause, reserves⟩ := (State.opGuarded_erase here).mp op
        refine (State.opGuarded_erase (store ▸ here)).mpr
            ⟨store ▸ erasing, store ▸ unlocked, store ▸ cause, fun c d named => ?_⟩
        obtain ⟨d, was, rfl⟩ := phase named
        exact (same d).1.trans (reserves c d was)
      | program p =>
        refine (State.opGuarded_program (store ▸ here)).mpr ?_
        rw [store, sector]
        exact (State.opGuarded_program here).mp op
  · cases here : s.records.commit with
    | none => exact State.commitGuarded_none (by rw [commit, here]; rfl)
    | some c =>
      obtain ⟨holder, table, waits, phase⟩ := (State.commitGuarded_some here).mp guarded
      refine (State.commitGuarded_some (c := f c) (by rw [commit, here]; rfl)).mpr
          ⟨store ▸ holder, fun k named => ?_, ?_, ?_⟩
      · obtain ⟨named, keeps⟩ := slots c k named
        exact keeps (table k named)
      · rw [(same c).2, store]
        exact waits
      · unfold State.phaseGuarded at phase ⊢
        rw [(same c).1, store]
        exact phase
  · rw [store]
    intro h
    obtain ⟨op, holder, work, none⟩ := scanning h
    exact ⟨op, holder, work, by rw [commit, none]; rfl⟩
  · unfold State.oneOpenSector
    rw [store, opening]
    exact one

/-- Store and commit stay as they are, and no incident slot is emptied. -/
theorem State.KeepsArray.of_same {s t : State} (store : t.store = s.store)
    (commit : t.records.commit = s.records.commit)
    (slots : ∀ k, s.inc.table[(k : Fin 4)] ≠ none → t.inc.table[k] ≠ none) : s.KeepsArray t :=
  .of_commit (f := id) store (commit.trans (Option.map_id_apply ..).symm)
      (fun _ => ⟨rfl, rfl⟩) fun _ k named => ⟨named, slots k⟩

theorem State.SparesStore.keepsArray {s t : State} (h : s.SparesStore t) : s.KeepsArray t :=
  .of_same h.store (congrArg Records.commit h.records) h.slots

section
variable {s : State}

theorem State.arrayGuarded.table (h : s.arrayGuarded) (ready : s.store.state = .ready) : s.TableGuarded :=
  ⟨h.1, h.2.1, ready⟩

/-- An array in use belongs to a READY store (R114). -/
theorem State.arrayGuarded.ready (h : s.arrayGuarded) {o : ArrayOp} (op : s.store.op = some o) :
    s.store.state = .ready := by
  obtain ⟨-, -, -, -, scanning⟩ := h
  cases state : s.store.state with
  | ready => rfl
  | scanning => exact (Option.some_ne_none o (op.symm.trans (scanning state).1)).elim

theorem State.arrayGuarded.ready_of_commit (h : s.arrayGuarded) {c : Commit} (commit : s.records.commit = some c) :
    s.store.state = .ready := by
  obtain ⟨-, -, -, -, scanning⟩ := h
  cases state : s.store.state with
  | ready => rfl
  | scanning =>
    obtain ⟨-, -, -, absent⟩ := scanning state
    exact (Option.some_ne_none c (commit.symm.trans absent)).elim

theorem State.arrayGuarded.commit (h : s.arrayGuarded) {c : Commit} (commit : s.records.commit = some c) :
    s.HeldFor c ∧ (c.waiting = true → s.store.op = none) ∧ s.phaseGuarded c.phase := by
  have ready := h.ready_of_commit commit
  obtain ⟨shielded, work, -, guarded, -⟩ := h
  obtain ⟨holder, slots, waits, phase⟩ := (State.commitGuarded_some commit).mp guarded
  exact ⟨⟨⟨shielded, work, ready⟩, holder, slots⟩, waits, phase⟩

theorem State.arrayGuarded.no_commit (h : s.arrayGuarded) (holder : s.store.holder ≠ some .commit) :
    s.records.commit = none := by
  by_contra some_commit
  obtain ⟨c, commit⟩ := Option.ne_none_iff_exists'.mp some_commit
  exact holder (h.commit commit).1.holder

/-- An array without a holder: no commit, and no operation that a holder waits for. -/
theorem State.arrayGuarded.unheld (h : s.arrayGuarded) (holder : s.store.holder = none) : s.store.OnlyStray := by
  obtain ⟨-, -, guarded, -⟩ := h
  intro o op
  cases o with
  | erase e =>
    obtain ⟨erasing, unlocked, cause, -⟩ := (State.opGuarded_erase op).mp guarded
    exact ⟨e, rfl, erasing, unlocked, fun overwrite => (nomatch holder.symm.trans (cause.mpr overwrite))⟩
  | program p =>
    obtain ⟨-, held⟩ := (State.opGuarded_program op).mp guarded
    split at held
    · exact (nomatch holder.symm.trans held.1)
    · exact (nomatch holder.symm.trans held)

/-! ### The arbiter (R107) -/

theorem State.secures_self (h : s.arrayGuarded) (ready : s.store.state = .ready) (commit : s.records.commit = none) :
    s.Secures s := ⟨h, ready, fun one => State.oneOpen_of one (Records.opening_none commit)⟩

theorem State.secures_grantCommit (h : s.arrayGuarded) (idle : s.arrayIdle = true) : s.Secures s.grantCommit := by
  have ready : s.store.state = .ready := by
    unfold State.arrayIdle at idle
    rw [Bool.and_eq_true, Bool.and_eq_true, beq_iff_eq] at idle
    exact idle.1.1
  obtain ⟨holder, read⟩ := State.idle_unheld idle
  have self := State.secures_self h ready (h.no_commit (holder ▸ fun h => (nomatch h)))
  unfold State.grantCommit
  split
  · exact self
  next k _ _ =>
    split
    · exact self
    next n here =>
      let c : Commit := ⟨some k, n.recordSize, s.store.policy, .reservation none, false⟩
      have held : (s.granted c).HeldFor c := by
        refine ⟨(h.table ready).eased (.refl _) (List.Subset.refl _) rfl, rfl, fun j named => ?_⟩
        rw [← Option.some.inj named]
        exact here ▸ Option.some_ne_none n
      have reserved := State.secures_reserve held (h.unheld holder) (k := k) rfl rfl fun reading => absurd read reading
      exact ⟨reserved.guarded, reserved.ready, reserved.oneOpen⟩

theorem Store.toReclaim_some {st : Store} {x : Fin 64} (h : st.toReclaim = some x) : st.sectors[x].pending = true := by
  have found := List.find?_some h
  exact (Bool.and_eq_true _ _ ▸ found).1

theorem State.secures_grantReclaim (h : s.arrayGuarded) (ready : s.store.state = .ready)
    (holder : s.store.holder = none) :
    s.Secures s.grantReclaim := by
  have commit := h.no_commit (holder ▸ fun h => (nomatch h))
  unfold State.grantReclaim
  split
  next x found =>
    have table : ({ s with store := { s.store with holder := some .background } } : State).TableGuarded :=
      (h.table ready).eased (.refl _) (List.Subset.refl _) rfl
    have erases := State.secures_startErase table (h.1 x (.inr (Store.toReclaim_some found)))
        (fun h => (nomatch h)) commit
      (cause := .reclaim) (fun h => (nomatch h))
    exact ⟨erases.guarded, erases.ready, erases.oneOpen⟩
  next => exact State.secures_self h ready commit

theorem State.secures_grantItem (h : s.arrayGuarded) (ready : s.store.state = .ready) (holder : s.store.holder = none)
    {i : WorkItem} {rest : List WorkItem} (work : s.store.work = i :: rest) : s.Secures (s.grantItem i rest) := by
  have commit := h.no_commit (holder ▸ fun h => (nomatch h))
  let u : State := { s with store := { s.store with holder := some .hostItem, work := rest } }
  have table : u.TableGuarded := (h.table ready).eased (.refl _) (work ▸ List.subset_cons_self i rest) rfl
  have unlocked : u.store.sectors[i.sector].protection = .unlocked := h.2.1 i (work ▸ List.mem_cons_self)
  unfold State.grantItem
  split
  next x =>
    have erases := State.secures_startErase table unlocked (fun h => (nomatch h)) commit (cause := .host)
      (fun h => (nomatch h))
    exact ⟨erases.guarded, erases.ready, erases.oneOpen⟩
  next serial x offset =>
    let t := u.startUnit x (offset + stateOffset) [stateDiscarded] .mark (some serial)
    have op : t.opGuarded := by
      rw [State.opGuarded_program (p :=
          ⟨x, offset + stateOffset, [stateDiscarded], .mark, some serial, s.time.elapsed⟩) rfl]
      exact ⟨unlocked, rfl⟩
    exact ⟨⟨table.shielded, table.work, op, State.commitGuarded_none commit,
        fun scanning => (nomatch ready.symm.trans scanning)⟩, ready,
      fun one => State.oneOpen_of (s := t) one (Records.opening_none commit)⟩

/-- The arbiter keeps the array guarded. -/
theorem State.keepsArray_arbitrate (s : State) : s.KeepsArray s.arbitrate := by
  intro h
  cases idle : s.arrayIdle with
  | false => rw [s.arbitrate_busy idle]; exact ⟨h, id⟩
  | true =>
    obtain ⟨holder, -⟩ := State.idle_unheld idle
    have ready : s.store.state = .ready := by
      unfold State.arrayIdle at idle
      rw [Bool.and_eq_true, Bool.and_eq_true, beq_iff_eq] at idle
      exact idle.1.1
    unfold State.arbitrate
    rw [if_pos idle]
    split
    next i rest work => exact (State.secures_grantItem h ready holder work).keeps
    next =>
      have commit : s.Secures (if s.records.full = none then s.grantCommit else s) := by
        split
        · exact State.secures_grantCommit h idle
        · exact State.secures_self h ready (h.no_commit (holder ▸ fun h => (nomatch h)))
      generalize (if s.records.full = none then s.grantCommit else s) = t at commit ⊢
      dsimp only
      split
      next free => exact (commit.trans (State.secures_grantReclaim commit.guarded commit.ready free)).keeps
      next => exact commit.keeps

theorem State.keepsArray_settleEvent (old s : State) : s.KeepsArray (State.settleEvent old s) :=
  (State.spares_conclude old s).keepsArray.trans (State.keepsArray_arbitrate _)

/-! ### Program units end (R98, R127, R133 to R135) -/

/-- A unit is over, its holder not yet told. -/
structure State.UnitOver (s : State) (p : ProgramOp) : Prop extends State.TableGuarded s where
  op : s.store.op = none
  unlocked : s.store.sectors[p.sector].protection = .unlocked
  commit : ∀ c, s.records.commit = some c → s.HeldFor c ∧ p.cause = .commit
    ∧ (∀ x seq, c.phase = .reservation (some (x, seq)) → p.sector = x)
    ∧ ∀ g, c.phase = .programming g → s.store.sectors[g.sector].state = .opened

theorem State.eases_leaveBytes (s : State) (p : ProgramOp) (bytes : List Byte) :
    s.store.Eases (s.leaveBytes p bytes).store :=
  s.eases_modSector p.sector (f := fun x => { x with mem := x.mem.writeBytes p.offset bytes }) ⟨rfl, id, .inl⟩

theorem State.leaveBytes_state (s : State) (p : ProgramOp) (bytes : List Byte) (x : Fin 64) :
    (s.leaveBytes p bytes).store.sectors[x].state = s.store.sectors[x].state := by
  obtain ⟨m, same⟩ := s.leaveBytes_sameTable p bytes x
  rw [same]

theorem State.arrayGuarded.unitOver (h : s.arrayGuarded) {p : ProgramOp} (op : s.store.op = some (.program p))
    (bytes : List Byte) : (s.leaveBytes p bytes).UnitOver p := by
  have eases := s.eases_leaveBytes p bytes
  obtain ⟨unlocked, holder⟩ := (State.opGuarded_program op).mp h.2.2.1
  refine ⟨(h.table (h.ready op)).eased eases (List.Subset.refl _) rfl, rfl, (eases p.sector).protection.trans unlocked,
    fun c commit => ?_⟩
  obtain ⟨held, -, phase⟩ := h.commit commit
  have cause : p.cause = .commit := by
    by_contra other
    rw [if_neg other] at holder
    exact (nomatch holder.symm.trans held.holder)
  refine ⟨held.eased eases (List.Subset.refl _) rfl rfl rfl fun _ => id, cause, fun x seq opening => ?_,
      fun g programs => ?_⟩
  · rw [opening] at phase
    obtain ⟨q, here, sector, -⟩ := phase
    obtain rfl : p = q := by simpa using op.symm.trans here
    exact sector
  · rw [programs] at phase
    exact (s.leaveBytes_state p bytes g.sector).trans phase

theorem State.leaveBytes_oneOpen (s : State) (p : ProgramOp) (bytes : List Byte) (one : s.oneOpenSector) :
    (s.leaveBytes p bytes).oneOpenSector := by
  have eases := s.eases_leaveBytes p bytes
  exact ⟨Store.OneOpen.eased one.1 eases, fun opening => Store.NoneOpen.eased (one.2 opening) eases⟩

variable {p : ProgramOp}

/-- The commit ends with the event, and the array is free. -/
theorem State.TableGuarded.ends {t : State} (h : s.TableGuarded) (op : t.store.op = none)
    (eases : s.store.Eases t.store)
    (work : t.store.work = s.store.work) (state : t.store.state = s.store.state) (holder : t.store.holder = none)
    (commit : t.records.commit = none) : s.Secures t :=
  ((h.eased eases (work ▸ List.Subset.refl _) state).released (Store.onlyStray_none op) (holder ▸ fun h => (nomatch h))
    commit).eased eases

theorem State.UnitOver.retain (h : s.UnitOver p) {k : Fin 4} (here : s.inc.table[k] ≠ none) (c : Commit)
    (g : Programming) :
    s.Secures (s.retain k c g) := by
  unfold State.retain
  split
  next absent => exact absurd absent here
  next =>
    exact h.toTableGuarded.ends h.op
        (s.eases_modSector g.sector (f := Sector.gains c.size) ⟨rfl, id, .inl⟩) rfl rfl rfl rfl

theorem State.UnitOver.cancelMarked (h : s.UnitOver p) {k : Fin 4} (here : s.inc.table[k] ≠ none) (c : Commit)
    (g : Programming) : s.Secures (s.cancelMarked k c g) := by
  obtain ⟨n, here⟩ := Option.ne_none_iff_exists'.mp here
  rw [State.cancelMarked_eq here]
  exact h.toTableGuarded.ends h.op
      (s.eases_modSector g.sector (f := Sector.wastes c.size) ⟨rfl, id, .inl⟩) rfl rfl rfl rfl

theorem State.UnitOver.commitFails (h : s.UnitOver p) {k : Fin 4} (here : s.inc.table[k] ≠ none) (op : ProgramOp)
    (g : Programming) : s.Secures (s.commitFails k op g) := by
  have eases : s.store.Eases ((s.programFault op).modSector g.sector Sector.close).store :=
    (s.programFault op).eases_modSector g.sector (Sector.eases_close _)
  unfold State.commitFails
  split
  next absent => exact absurd absent here
  next n slot =>
    have ends (u : State) (store : u.store = ((s.programFault op).modSector g.sector Sector.close).store) :
        s.Secures u.endCommit := by
      refine h.toTableGuarded.ends ?_ ?_ ?_ ?_ rfl rfl
      · exact (congrArg Store.op store).trans h.op
      · exact fun x => by
          have same : u.endCommit.store.sectors = u.store.sectors := rfl
          rw [same, store]
          exact eases x
      · change u.store.work = s.store.work
        rw [store]
        rfl
      · change u.store.state = s.store.state
        rw [store]
        rfl
    have abandons (why : AbandonReason) : (((s.programFault op).modSector g.sector Sector.close).abandon k why).store
        = ((s.programFault op).modSector g.sector Sector.close).store := by
      unfold State.abandon
      split <;> rfl
    dsimp only
    split
    · exact ends _ (abandons _)
    · split
      · exact ends _ (abandons _)
      · exact ends _ rfl

/-- The array after a unit whose holder does nothing with it. -/
theorem State.UnitOver.rests (h : s.UnitOver p) {c : Commit} (commit : s.records.commit = some c)
    (unopening : ∀ x seq, c.phase ≠ .reservation (some (x, seq))) : s.arrayGuarded := by
  obtain ⟨held, -, -, programs⟩ := h.commit c commit
  refine held.guarded commit (State.opGuarded_none h.op) (fun _ => h.op) ?_
  cases phase : c.phase with
  | reservation o =>
    cases o with
    | none => trivial
    | some o => exact absurd phase (unopening o.1 o.2)
  | programming g => exact programs g phase

theorem State.UnitOver.drops (h : s.UnitOver p) {t : State}
    (commit : ¬ ∃ c, p.cause = .commit ∧ s.records.commit = some c)
    (op : t.store.op = none) (eases : s.store.Eases t.store) (work : t.store.work = s.store.work)
    (state : t.store.state = s.store.state) (holder : t.store.holder = none) (records : t.records = s.records) :
    s.Secures t := by
  refine h.toTableGuarded.ends op eases work state holder ?_
  rw [records]
  by_contra here
  obtain ⟨c, here⟩ := Option.ne_none_iff_exists'.mp here
  exact commit ⟨c, (h.commit c here).2.1, here⟩

/-- The header of a sector passes: the sector is OPEN, and the only one. -/
theorem State.UnitOver.opens (h : s.UnitOver p) {c : Commit} (commit : s.records.commit = some c) {x : Fin 64}
    {seq : Word}
    (phase : c.phase = .reservation (some (x, seq))) :
    ((s.modSector x (Sector.opened seq)).recheck { c with phase := .reservation none }).arrayGuarded
      ∧ (s.oneOpenSector → ((s.modSector x (Sector.opened seq)).recheck
          { c with phase := .reservation none }).oneOpenSector) := by
  obtain ⟨held, -, sector, -⟩ := h.commit c commit
  obtain rfl := sector x seq phase
  let u := s.modSector p.sector (Sector.opened seq)
  have same : u.store.sectors[p.sector] = s.store.sectors[p.sector].opened seq := s.modSector_same _ _
  have other (y : Fin 64) (hy : y ≠ p.sector) : u.store.sectors[y] = s.store.sectors[y] := s.modSector_other _ y hy _
  have protection (y : Fin 64) : u.store.sectors[y].protection = s.store.sectors[y].protection :=
    s.modSector_protection _ y _ fun _ => rfl
  have heldOpen : u.HeldFor { c with phase := .reservation none } := by
    refine ⟨⟨fun y raised => ?_, fun i named => (protection i.sector).trans (held.work i named), held.ready⟩,
        held.holder,
      held.slots⟩
    by_cases here : y = p.sector
    · subst here
      exact (protection _).trans h.unlocked
    · rw [other y here] at raised ⊢
      exact held.shielded y raised
  have checked := State.secures_recheck heldOpen h.op fun _ => rfl
  refine ⟨checked.guarded, fun one => checked.oneOpen fun y z hy hz => ?_⟩
  have none : s.store.NoneOpen := one.2 (by
    unfold Records.opening
    rw [commit, Option.bind_some, phase]
    exact Option.some_ne_none _)
  have only (w : Fin 64) (hw : u.store.sectors[w].state = .opened) : w = p.sector := by
    by_contra here
    rw [other w here] at hw
    exact none w hw
  exact (only y hy).trans (only z hz).symm

theorem State.UnitOver.unitPassed (h : s.UnitOver p) :
    (s.unitPassed p).arrayGuarded ∧ (s.oneOpenSector → (s.unitPassed p).oneOpenSector) := by
  unfold State.unitPassed
  split
  next c cause commit =>
    obtain ⟨held, -, -, programs⟩ := h.commit c commit
    split
    next x seq phase => exact h.opens commit phase
    next g k phase incident =>
      have here := held.slots k incident
      split
      next len _ =>
        have opened := programs g phase
        unfold State.continueRecord State.whenServed
        split
        next =>
          obtain ⟨u, offset, bytes, run⟩ :=
            State.unitBoundary_begins k c { g with done := g.done + len, units := g.units + 1 } here
          beta_reduce
          rw [run]
          exact (State.HeldFor.unitBegun (g := { g with done := g.done + len, units := g.units + 1 }) held opened u
            offset bytes).keeps
        next =>
          refine State.Secures.keeps (State.HeldFor.waits
            (c := { c with phase := .programming { g with done := g.done + len, units := g.units + 1 } })
            (held.eased (.refl _) (List.Subset.refl _) rfl rfl rfl fun _ => id) h.op opened
            fun _ => CommitPhase.noConfusion)
      next => exact (h.retain here c g).keeps
      next => exact (h.cancelMarked here c g).keeps
    next unopening _ => exact ⟨h.rests commit fun x seq phase => unopening x seq phase, id⟩
  next uncommitted =>
    exact (h.drops (t := s.dropHolder) (fun ⟨c, cause, commit⟩ => uncommitted c cause commit) h.op (.refl _) rfl rfl rfl
      rfl).keeps

theorem State.UnitOver.unitFailed (h : s.UnitOver p) :
    (s.unitFailed p).arrayGuarded ∧ (s.oneOpenSector → (s.unitFailed p).oneOpenSector) := by
  unfold State.unitFailed
  split
  next c cause commit =>
    obtain ⟨held, -⟩ := h.commit c commit
    split
    next x seq phase =>
      have eases : s.store.Eases ((s.programFault p).modSector x Sector.spoilt).store :=
        (s.programFault p).eases_modSector x (Sector.eases_spoilt _)
      have spoiled : ((s.programFault p).modSector x Sector.spoilt).HeldFor { c with phase := .reservation none } :=
        held.eased eases (List.Subset.refl _) rfl rfl rfl fun _ => id
      exact ((State.secures_recheck spoiled h.op fun _ => rfl).eased eases).keeps
    next g k _ incident => exact (h.commitFails (held.slots k incident) p g).keeps
    next unopening _ => exact ⟨h.rests commit fun x seq phase => unopening x seq phase, id⟩
  next uncommitted =>
    exact (h.drops (t := ((s.programFault p).modSector p.sector Sector.close).dropHolder)
      (fun ⟨c, cause, commit⟩ => uncommitted c cause commit) h.op
      ((s.programFault p).eases_modSector p.sector (Sector.eases_close _)) rfl rfl rfl rfl).keeps

theorem State.keepsArray_unitEnd (op : s.store.op = some (.program p)) (bytes : List Byte) (passed : Prop)
    [Decidable passed] : s.KeepsArray
      (if passed then (s.leaveBytes p bytes).unitPassed p else (s.leaveBytes p bytes).unitFailed p) := by
  intro h
  have ended := h.unitOver op bytes
  have one := s.leaveBytes_oneOpen p bytes
  split
  · exact ⟨ended.unitPassed.1, fun o => ended.unitPassed.2 (one o)⟩
  · exact ⟨ended.unitFailed.1, fun o => ended.unitFailed.2 (one o)⟩

/-! ### Erases end (R99, R105) -/

theorem State.endErase_secures {e : EraseOp} (h : s.arrayGuarded) (op : s.store.op = some (.erase e)) {t : State}
    (settled : t.store.op = none) (eases : s.store.Eases t.store) (work : t.store.work = s.store.work)
    (state : t.store.state = s.store.state) (holder : t.store.holder = s.store.holder)
    (commit : t.records.commit = s.records.commit) (table : t.inc.table = s.inc.table) : s.Secures (t.eraseOver e) := by
  obtain ⟨-, -, cause, reserves⟩ := (State.opGuarded_erase op).mp h.2.2.1
  unfold State.eraseOver
  split
  next c overwrite here =>
    obtain ⟨held, -⟩ := h.commit (commit ▸ here)
    have heldOver : t.HeldFor c :=
      held.eased eases (work ▸ List.Subset.refl _) state holder rfl fun k slot => by rw [table]; exact slot
    exact (State.secures_recheck heldOver settled fun _ => reserves overwrite c (commit ▸ here)).eased eases
  next other =>
    refine (h.table (h.ready op)).ends settled eases work state rfl ?_
    by_contra here
    obtain ⟨c, here⟩ := Option.ne_none_iff_exists'.mp here
    have held := (h.commit (c := c) (commit ▸ here)).1.holder
    exact other c (cause.mp held) here

theorem State.keepsArray_endErase {e : EraseOp} (op : s.store.op = some (.erase e)) (passed : Bool) :
    s.KeepsArray (s.endErase e passed) := by
  intro h
  unfold State.endErase
  dsimp only
  split
  · refine State.Secures.keeps (State.endErase_secures h op rfl ?_ rfl rfl rfl rfl rfl)
    exact s.eases_modSector e.sector (Sector.eases_erasedWell _)
  · refine State.Secures.keeps (State.endErase_secures h op rfl ?_ rfl rfl rfl rfl rfl)
    exact s.eases_modSector e.sector (Sector.eases_erasedBadly s.freeKey _)

/-! ### Record reads (R102, R133) -/

/-- A read begins or ends: the erase in progress stops or goes on. -/
theorem State.keepsArray_mapErase (s : State) (r : Option ReadJob) {f : EraseOp → EraseOp}
    (same : ∀ e, (f e).sector = e.sector ∧ (f e).cause = e.cause) :
    s.KeepsArray { s with store := { s.store with read := r, op := s.store.op.map (ArrayOp.mapErase f) } } := by
  intro ⟨shielded, work, op, commit, scanning⟩
  let t : State := { s with store := { s.store with read := r, op := s.store.op.map (ArrayOp.mapErase f) } }
  have mapped {o : Option ArrayOp} (here : s.store.op = o) : t.store.op = o.map (ArrayOp.mapErase f) :=
    congrArg (Option.map (ArrayOp.mapErase f)) here
  refine ⟨⟨shielded, work, (?_ : t.opGuarded), (?_ : t.commitGuarded), fun h => ?_⟩, id⟩
  · cases here : s.store.op with
    | none => exact State.opGuarded_none (mapped here)
    | some o =>
      cases o with
      | erase e =>
        refine (State.opGuarded_erase (mapped here)).mpr ?_
        simp only [(same e).1, (same e).2]
        exact (State.opGuarded_erase here).mp op
      | program p => exact (State.opGuarded_program (mapped here)).mpr ((State.opGuarded_program here).mp op)
  · cases here : s.records.commit with
    | none => exact State.commitGuarded_none here
    | some c =>
      obtain ⟨holder, slots, waits, phase⟩ := (State.commitGuarded_some here).mp commit
      refine (State.commitGuarded_some (s := t) here).mpr ⟨holder, slots, fun w => mapped (waits w), ?_⟩
      cases here : c.phase with
      | reservation o =>
        cases o with
        | none => trivial
        | some o =>
          rw [here] at phase
          obtain ⟨p, programs, rest⟩ := phase
          exact ⟨p, mapped programs, rest⟩
      | programming g =>
        rw [here] at phase
        exact phase
  · obtain ⟨none_op, rest⟩ := scanning h
    exact ⟨mapped none_op, rest⟩

theorem State.keepsArray_resumeCommit (s : State) : s.KeepsArray s.resumeCommit := by
  intro h
  unfold State.resumeCommit
  split
  next c commit =>
    obtain ⟨held, waits, phase⟩ := h.commit commit
    split
    next waiting =>
      have op := waits waiting
      split
      next g k programs incident =>
        obtain ⟨u, offset, bytes, run⟩ := State.unitBoundary_begins k c g (held.slots k incident)
        rw [programs] at phase
        rw [run]
        exact (held.unitBegun phase u offset bytes).keeps
      next other =>
        refine (State.secures_recheck held op fun some_incident => ?_).keeps
        obtain ⟨k, incident⟩ := Option.ne_none_iff_exists'.mp some_incident
        cases here : c.phase with
        | programming g => exact (other g k here incident).elim
        | reservation o =>
          cases o with
          | none => rfl
          | some o =>
            rw [here] at phase
            obtain ⟨p, programs, -⟩ := phase
            exact (Option.some_ne_none _ (programs.symm.trans op)).elim
    next => exact ⟨h, id⟩
  next => exact ⟨h, id⟩

theorem EraseOp.suspend_same (now : Stamp) (e : EraseOp) :
    (e.suspend now).sector = e.sector ∧ (e.suspend now).cause = e.cause := by
  unfold EraseOp.suspend
  split <;> exact ⟨rfl, rfl⟩

theorem EraseOp.resume_same (now : Stamp) (e : EraseOp) :
    (e.resume now).sector = e.sector ∧ (e.resume now).cause = e.cause := by
  unfold EraseOp.resume
  split <;> exact ⟨rfl, rfl⟩

theorem State.keepsArray_beginRead (s : State) (job : ReadJob) : s.KeepsArray (s.beginRead job) :=
  s.keepsArray_mapErase (some job) (EraseOp.suspend_same _)

theorem State.keepsArray_endRead (s : State) : s.KeepsArray s.endRead :=
  ((s.keepsArray_mapErase none (EraseOp.resume_same _)).trans (State.keepsArray_resumeCommit _)).trans
    (State.keepsArray_arbitrate _)

end

end Sys2Proof.Machine
end

section
/-! PROOFS. The start-up scan: every sector has its finding, the headed ones in the order of their sequences, and what
the walk of their records keeps (R141 to R148). -/

namespace Sys2Proof.Machine

/-! ### Headed sectors in the order of the walk (R142) -/

theorem placeHeaded_perm (c : Fin 64 × Word) (l : List (Fin 64 × Word)) : (placeHeaded c l).Perm (c :: l) := by
  induction l with
  | nil => exact .refl _
  | cons d rest ih =>
    unfold placeHeaded
    split
    · exact .refl _
    · exact (ih.cons d).trans (.swap c d rest)

theorem placeHeaded_sorted (c : Fin 64 × Word) {l : List (Fin 64 × Word)} (h : l.Pairwise fun a b => a.2 ≤ b.2) :
    (placeHeaded c l).Pairwise fun a b => a.2 ≤ b.2 := by
  induction l with
  | nil => exact List.pairwise_singleton _ c
  | cons d rest ih =>
    obtain ⟨first, later⟩ := List.pairwise_cons.mp h
    unfold placeHeaded
    split
    next before =>
      refine List.pairwise_cons.mpr ⟨fun e he => ?_, h⟩
      obtain rfl | he := List.mem_cons.mp he
      · exact BitVec.le_of_lt before
      · exact BitVec.le_trans (BitVec.le_of_lt before) (first e he)
    next behind =>
      refine List.pairwise_cons.mpr ⟨fun e he => ?_, ih later⟩
      obtain rfl | he := List.mem_cons.mp ((placeHeaded_perm c rest).mem_iff.mp he)
      · exact BitVec.not_lt.mp behind
      · exact first e he

/-- A sector with its sequence, if the scan classes it headed (R141). -/
def Store.headOf (st : Store) (x : Fin 64) : Option (Fin 64 × Word) :=
  match (st.sectors[x].classify).1 with
  | .headed seq => some (x, seq)
  | _ => none

theorem Store.headOf_eq_some {st : Store} {x : Fin 64} {c : Fin 64 × Word} :
    st.headOf x = some c ↔ c.1 = x ∧ (st.sectors[x].classify).1 = .headed c.2 := by
  obtain ⟨y, seq⟩ := c
  unfold Store.headOf
  split
  next seq' h => rw [h]; simp [eq_comm]
  next other =>
    refine ⟨fun h => (Option.some_ne_none _ h.symm).elim, fun ⟨_, h⟩ => (other seq h).elim⟩

/-- One sector joins the headed ones. -/
def Store.addHead (st : Store) (acc : List (Fin 64 × Word)) (x : Fin 64) : List (Fin 64 × Word) :=
  match st.headOf x with
  | some c => placeHeaded c acc
  | none => acc

theorem Store.headed_eq (st : Store) : st.headed = allSectors.foldl st.addHead [] := by
  unfold Store.headed
  congr 1
  funext acc x
  unfold Store.addHead Store.headOf
  cases (st.sectors[x].classify).1 <;> rfl

theorem Store.foldl_addHead (st : Store) (xs : List (Fin 64)) (acc : List (Fin 64 × Word))
    (sorted : acc.Pairwise fun a b => a.2 ≤ b.2) : (xs.foldl st.addHead acc).Perm (acc ++ xs.filterMap st.headOf)
      ∧ (xs.foldl st.addHead acc).Pairwise fun a b => a.2 ≤ b.2 := by
  induction xs generalizing acc with
  | nil => exact ⟨by simp, sorted⟩
  | cons x rest ih =>
    rw [List.foldl_cons]
    unfold Store.addHead
    cases h : st.headOf x with
    | none =>
      rw [List.filterMap_cons_none h]
      exact ih acc sorted
    | some c =>
      rw [List.filterMap_cons_some h]
      obtain ⟨perm, sorted⟩ := ih (placeHeaded c acc) (placeHeaded_sorted c sorted)
      exact ⟨(perm.trans ((placeHeaded_perm c acc).append_right _)).trans List.perm_middle.symm, sorted⟩

theorem Store.headed_sorted (st : Store) : st.headed.Pairwise fun a b => a.2 ≤ b.2 := by
  rw [Store.headed_eq]
  exact (st.foldl_addHead allSectors [] .nil).2

/-- The headed sectors are those classed so, each under the sequence of its header. -/
theorem Store.mem_headed (st : Store) (c : Fin 64 × Word) :
    c ∈ st.headed ↔ (st.sectors[c.1].classify).1 = .headed c.2 := by
  rw [Store.headed_eq, (st.foldl_addHead allSectors [] .nil).1.mem_iff, List.nil_append, List.mem_filterMap]
  constructor
  · rintro ⟨x, -, h⟩
    obtain ⟨rfl, h⟩ := Store.headOf_eq_some.mp h
    exact h
  · exact fun h => ⟨c.1, List.mem_finRange _, Store.headOf_eq_some.mpr ⟨rfl, h⟩⟩

/-! ### What the walk of a sector keeps (R142 to R144) -/

/-- The walk so far: records found in rising serials, none above the highest seen, which is not the largest, and each in
a sector of a kind. -/
structure ScanWork.Rising (of : Fin 64 → Prop) (w : ScanWork) : Prop where
  rising : w.found.Pairwise fun a b => a.serial < b.serial
  seen : ∀ e ∈ w.found, ∃ h, w.highestSerial = some h ∧ e.serial ≤ h
  notLast : w.highestSerial ≠ some 0xFFFFFFFF#32
  sector : ∀ e ∈ w.found, of e.sector

/-- What a walk leaves of the rest: findings, highest sequence and cause, and damage once it is seen. -/
structure ScanWork.Walks (v w : ScanWork) : Prop where
  findings : w.findings = v.findings
  highestSeq : w.highestSeq = v.highestSeq
  cause : w.cause = v.cause
  damage : v.damage = true → w.damage = true

theorem ScanWork.Walks.refl (v : ScanWork) : v.Walks v := ⟨rfl, rfl, rfl, id⟩

/-- Only torn count and damage differ. -/
theorem ScanWork.Rising.counts {of : Fin 64 → Prop} {v w : ScanWork} (h : v.Rising of) (found : w.found = v.found)
    (highest : w.highestSerial = v.highestSerial) : w.Rising of := by
  obtain ⟨rising, seen, notLast, sector⟩ := h
  exact ⟨found ▸ rising, by rw [found, highest]; exact seen, highest ▸ notLast, found ▸ sector⟩

theorem headerValid_serial {h : List Byte} {at_ : Nat} {highest : Option Word}
    (valid : headerValid h at_ highest = true) :
    headerSerial h ≠ 0xFFFFFFFF#32 ∧ ∀ t, highest = some t → t < headerSerial h := by
  unfold headerValid at valid
  simp only [Bool.and_eq_true, bne_iff_ne, ne_eq, Option.all_eq_true, decide_eq_true_eq] at valid
  obtain ⟨⟨⟨⟨⟨⟨-, -⟩, notLast⟩, -⟩, -⟩, -⟩, above⟩ := valid
  exact ⟨notLast, above⟩

/-- A header above the highest serial is seen. -/
theorem ScanWork.Rising.sees {of : Fin 64 → Prop} {w : ScanWork} (h : w.Rising of) {v : Word}
    (notLast : v ≠ 0xFFFFFFFF#32)
    (above : ∀ t, w.highestSerial = some t → t < v) : ScanWork.Rising of { w with highestSerial := some v } := by
  refine ⟨h.rising, fun e he => ⟨v, rfl, ?_⟩, fun last => notLast (Option.some.inj last), h.sector⟩
  obtain ⟨t, highest, le⟩ := h.seen e he
  exact BitVec.le_trans le (BitVec.le_of_lt (above t highest))

/-- Its record is found. -/
theorem ScanWork.Rising.finds {of : Fin 64 → Prop} {w : ScanWork} (h : w.Rising of) {v : Word}
    (notLast : v ≠ 0xFFFFFFFF#32)
    (above : ∀ t, w.highestSerial = some t → t < v) {e : IndexEntry} (serial : e.serial = v) (sector : of e.sector) :
    ScanWork.Rising of { w with highestSerial := some v, found := w.found ++ [e] } := by
  have sees := h.sees notLast above
  refine ⟨List.pairwise_append.mpr ⟨h.rising, List.pairwise_singleton _ e, fun a ha b hb => ?_⟩, fun d hd => ?_,
    sees.notLast, fun d hd => ?_⟩
  · obtain ⟨t, highest, le⟩ := h.seen a ha
    rw [List.mem_singleton.mp hb, serial]
    exact BitVec.lt_def.mpr (Nat.lt_of_le_of_lt (BitVec.le_def.mp le) (BitVec.lt_def.mp (above t highest)))
  · obtain hd | hd := List.mem_append.mp hd
    · exact sees.seen d hd
    · exact ⟨v, rfl, by rw [List.mem_singleton.mp hd, serial]; exact BitVec.le_refl v⟩
  · obtain hd | hd := List.mem_append.mp hd
    · exact h.sector d hd
    · rw [List.mem_singleton.mp hd]; exact sector

theorem endWalk_keeps (m : Memory) (at_ live dead : Nat) (w : ScanWork) : w.Walks (endWalk m at_ live dead w).1
    ∧ ∀ of : Fin 64 → Prop, w.Rising of → (endWalk m at_ live dead w).1.Rising of := by
  unfold endWalk
  split
  · exact ⟨.refl w, fun _ => id⟩
  · exact ⟨⟨rfl, rfl, rfl, fun _ => rfl⟩, fun _ h => h.counts rfl rfl⟩

theorem walkRecords_keeps (m : Memory) (x : Fin 64) (fuel at_ live dead : Nat) (w : ScanWork) :
    w.Walks (walkRecords m x fuel at_ live dead w).1
      ∧ ∀ of : Fin 64 → Prop, of x → w.Rising of → (walkRecords m x fuel at_ live dead w).1.Rising of := by
  induction fuel generalizing at_ live dead w with
  | zero =>
    obtain ⟨walks, rising⟩ := endWalk_keeps m at_ live dead w
    exact ⟨walks, fun of _ => rising of⟩
  | succ n ih =>
    obtain ⟨walks, rising⟩ := endWalk_keeps m at_ live dead w
    unfold walkRecords
    split
    · exact ⟨walks, fun of _ => rising of⟩
    · dsimp only
      split
      · exact ⟨walks, fun of _ => rising of⟩
      · split
        · exact ⟨⟨rfl, rfl, rfl, fun _ => rfl⟩, fun _ _ h => h.counts rfl rfl⟩
        next valid =>
          obtain ⟨notLast, above⟩ := headerValid_serial (Bool.not_eq_false _ ▸ Bool.not_eq_true' _ ▸ valid)
          split
          · obtain ⟨walks, rising⟩ := ih (at_ + headerSize (m.readRange at_ 64)) live
              (dead + headerSize (m.readRange at_ 64))
                  { w with highestSerial := some (headerSerial (m.readRange at_ 64)) }
            exact ⟨⟨walks.findings, walks.highestSeq, walks.cause, walks.damage⟩,
              fun of here h => rising of here (h.sees notLast above)⟩
          · split
            · obtain ⟨walks, rising⟩ := ih (at_ + headerSize (m.readRange at_ 64)) (live + 1) dead { w with
                highestSerial := some (headerSerial (m.readRange at_ 64))
                found := w.found ++ [foundEntry x at_ (m.readRange at_ 64)] }
              exact ⟨⟨walks.findings, walks.highestSeq, walks.cause, walks.damage⟩,
                fun of here h => rising of here (h.finds notLast above rfl here)⟩
            · exact ⟨⟨rfl, rfl, rfl, fun _ => rfl⟩, fun _ _ h => (h.sees notLast above).counts rfl rfl⟩
          · exact ⟨⟨rfl, rfl, rfl, id⟩, fun _ _ h => (h.sees notLast above).counts rfl rfl⟩

/-! ### The findings (R141, R145) -/

/-- The findings of the headed sectors join those of the others, in the order of the walk. -/
theorem Store.foldl_walkSector (st : Store) (heads : List (Fin 64 × Word)) (w : ScanWork) :
    (∃ fs, (heads.foldl st.walkSector w).findings = w.findings ++ fs
        ∧ fs.map (fun f => (f.sector, f.cls)) = heads.map fun c => (c.1, .headed c.2))
      ∧ (heads.foldl st.walkSector w).highestSeq = w.highestSeq ∧ (heads.foldl st.walkSector w).cause = w.cause
      ∧ (w.damage = true → (heads.foldl st.walkSector w).damage = true)
      ∧ ∀ of : Fin 64 → Prop, (∀ c ∈ heads, of c.1) → w.Rising of → (heads.foldl st.walkSector w).Rising of := by
  induction heads generalizing w with
  | nil => exact ⟨⟨[], (List.append_nil _).symm, rfl⟩, rfl, rfl, id, fun _ _ => id⟩
  | cons c rest ih =>
    obtain ⟨walks, rising⟩ := walkRecords_keeps (st.sectors[c.1].mem) c.1 walkFuel Config.bodyStart 0 0 w
    obtain ⟨⟨fs, findings, named⟩, highestSeq, cause, damage, rises⟩ := ih (st.walkSector w c)
    have added : ∃ f, (st.walkSector w c).findings = w.findings ++ [f] ∧ (f.sector, f.cls) = (c.1, .headed c.2) := by
      unfold Store.walkSector
      exact ⟨_, congrArg (· ++ [_]) walks.findings, rfl⟩
    obtain ⟨f, first, here⟩ := added
    refine ⟨⟨f :: fs, ?_, ?_⟩, highestSeq.trans walks.highestSeq, cause.trans walks.cause,
      fun d => damage (walks.damage d),
      fun of here h => rises of (fun d hd => here d (List.mem_cons_of_mem c hd))
        ((rising of (here c List.mem_cons_self) h).counts rfl rfl)⟩
    · rw [List.foldl_cons, findings, first, List.append_assoc, List.singleton_append]
    · rw [List.map_cons, List.map_cons, named, here]

theorem Store.mem_bareFindings (st : Store) (f : SectorFinding) :
    f ∈ st.bareFindings → f.cls = (st.sectors[f.sector].classify).1 ∧ ∀ seq, f.cls ≠ .headed seq := by
  unfold Store.bareFindings
  rw [List.mem_filterMap]
  rintro ⟨x, -, h⟩
  split at h
  next => exact (Option.some_ne_none f h.symm).elim
  next bare =>
    rw [← Option.some.inj h]
    exact ⟨rfl, bare⟩

theorem Store.bareFindings_cover (st : Store) (x : Fin 64) (h : ∀ seq, (st.sectors[x].classify).1 ≠ .headed seq) :
    ∃ f ∈ st.bareFindings, f.sector = x := by
  refine ⟨⟨x, (st.sectors[x].classify).1, 0, none, 0, 0⟩, List.mem_filterMap.mpr ⟨x, List.mem_finRange x, ?_⟩, rfl⟩
  split
  next seq here => exact (h seq here).elim
  next => rfl

/-- The findings of the scan: those of the sectors that are not headed, then those of the headed ones. -/
theorem Store.scanAll_findings (st : Store) : ∃ fs, st.scanAll.findings = st.bareFindings ++ fs
    ∧ fs.map (fun f => (f.sector, f.cls)) = st.headed.map fun c => (c.1, .headed c.2) :=
  (st.foldl_walkSector st.headed _).1

/-- A finding classes its sector as the scan does. -/
theorem Store.scanAll_cls (st : Store) {f : SectorFinding} (h : f ∈ st.scanAll.findings) :
    f.cls = (st.sectors[f.sector].classify).1 := by
  obtain ⟨fs, findings, named⟩ := st.scanAll_findings
  rw [findings, List.mem_append] at h
  obtain bare | headed := h
  · exact (st.mem_bareFindings f bare).1
  · have member := List.mem_map_of_mem (f := fun f : SectorFinding => (f.sector, f.cls)) headed
    rw [named] at member
    obtain ⟨c, here, same⟩ := List.mem_map.mp member
    obtain ⟨sector, cls⟩ := Prod.mk.inj same
    rw [← cls, ← (st.mem_headed c).mp here]
    simp only [sector]

/-- Every sector has its finding. -/
theorem Store.scanAll_finds (st : Store) (x : Fin 64) : ∃ f, f ∈ st.scanAll.findings
    ∧ (st.scanAll.findings.find? fun f => f.sector == x) = some f ∧ f.sector = x
    ∧ f.cls = (st.sectors[x].classify).1 := by
  obtain ⟨fs, findings, named⟩ := st.scanAll_findings
  have covered : ∃ f ∈ st.scanAll.findings, f.sector = x := by
    rw [findings]
    by_cases bare : ∀ seq, (st.sectors[x].classify).1 ≠ .headed seq
    · obtain ⟨f, here, sector⟩ := st.bareFindings_cover x bare
      exact ⟨f, List.mem_append_left _ here, sector⟩
    · obtain ⟨seq, headed⟩ := not_forall_not.mp bare
      have member := List.mem_map_of_mem (f := fun c : Fin 64 × Word => (c.1, SectorClass.headed c.2))
        ((st.mem_headed (x, seq)).mpr headed)
      rw [← named] at member
      obtain ⟨f, here, same⟩ := List.mem_map.mp member
      exact ⟨f, List.mem_append_right _ here, (Prod.mk.inj same).1⟩
  obtain ⟨g, member, sector⟩ := covered
  cases found : st.scanAll.findings.find? fun f => f.sector == x with
  | none => exact absurd (beq_iff_eq.mpr sector) (List.find?_eq_none.mp found g member)
  | some f =>
    have here := List.mem_of_find?_eq_some found
    have same : f.sector = x := beq_iff_eq.mp (List.find?_some (p := fun f : SectorFinding => f.sector == x) found)
    refine ⟨f, here, rfl, same, ?_⟩
    subst same
    exact st.scanAll_cls here

/-- A sector's entry of the table is settled by its finding. -/
theorem Store.settleAll_sector (st : Store) (x : Fin 64) : ∃ f ∈ st.scanAll.findings, f.sector = x
    ∧ f.cls = (st.sectors[x].classify).1 ∧ (st.settleAll st.scanAll)[x] = st.sectors[x].settled st.scanAll f := by
  obtain ⟨f, member, found, sector, cls⟩ := st.scanAll_finds x
  refine ⟨f, member, sector, cls, ?_⟩
  unfold Store.settleAll
  rw [vmap_get, found]

/-- The last headed sector has the highest sequence (R145). -/
theorem Store.lastHeaded_highest (st : Store) {f : SectorFinding} (last : st.scanAll.lastHeaded = some f) {seq : Word}
    (cls : f.cls = .headed seq) (c : Fin 64 × Word) (member : c ∈ st.headed) : c.2 ≤ seq := by
  obtain ⟨fs, findings, named⟩ := st.scanAll_findings
  have nonempty : fs ≠ [] := by
    rintro rfl
    rw [List.map_nil, eq_comm, List.map_eq_nil_iff] at named
    rw [named] at member
    exact (List.not_mem_nil member).elim
  unfold ScanWork.lastHeaded at last
  rw [findings, List.getLast?_append_of_ne_nil _ nonempty] at last
  obtain ⟨g, ends, same⟩ := Option.bind_eq_some_iff.mp last
  obtain rfl : g = f := by
    split at same
    · exact Option.some.inj same
    · exact (Option.some_ne_none f same.symm).elim
  have lastOf : (fs.map fun f => (f.sector, f.cls)).getLast? = some (g.sector, g.cls) := by
    rw [List.getLast?_map, ends]
    rfl
  rw [named, List.getLast?_map, cls] at lastOf
  obtain ⟨d, lastHead, same⟩ := Option.map_eq_some_iff.mp lastOf
  have highest : d.2 = seq := SectorClass.headed.inj (Prod.mk.inj same).2
  obtain ⟨init, split_⟩ := List.getLast?_eq_some_iff.mp lastHead
  rw [split_, List.mem_append, List.mem_singleton] at member
  rw [← highest]
  obtain before | rfl := member
  · have sorted := st.headed_sorted
    rw [split_] at sorted
    exact (List.pairwise_append.mp sorted).2.2 c before d (List.mem_singleton_self d)
  · exact BitVec.le_refl _

/-! ### What settling makes of the table (R145, R148) -/

/-- The scan opens the last headed sector alone, if it is UNLOCKED, and sets erase pending on UNLOCKED sectors alone. -/
theorem Sector.settled_guarded (w : ScanWork) (f : SectorFinding) (v : Sector) :
    ((v.settled w f).state = .opened → w.lastHeaded = some f ∧ v.protection = .unlocked)
      ∧ ((v.settled w f).pending = true → v.protection = .unlocked) ∧ (v.settled w f).protection = v.protection := by
  have candidate (u : Sector) (calm : u.pending = false) : u.settle.pending = true → u.protection = .unlocked := by
    intro pending
    obtain raised | unlocked := u.eases_settle.pending pending
    · exact (nomatch calm.symm.trans raised)
    · exact unlocked
  unfold Sector.settled
  split
  · exact ⟨fun h => (nomatch h), fun h => (nomatch h), rfl⟩
  · exact ⟨fun h => (nomatch (Sector.eases_settle _).opened h), candidate _ rfl, (Sector.eases_settle _).protection⟩
  · dsimp only
    split
    next open_ => exact ⟨fun _ => ⟨open_.1, open_.2.2⟩, fun h => (nomatch h), rfl⟩
    · exact ⟨fun h => (nomatch (Sector.eases_settle _).opened h), candidate _ rfl, (Sector.eases_settle _).protection⟩

theorem Store.settleAll_shielded (st : Store) (x : Fin 64)
    (raised : (st.settleAll st.scanAll)[x].state = .opened ∨ (st.settleAll st.scanAll)[x].pending = true) :
    (st.settleAll st.scanAll)[x].protection = .unlocked := by
  obtain ⟨f, -, -, -, settled⟩ := st.settleAll_sector x
  obtain ⟨opened, pending, protection⟩ := st.sectors[x].settled_guarded st.scanAll f
  rw [settled] at raised ⊢
  rw [protection]
  exact raised.elim (fun h => (opened h).2) pending

theorem Store.settleAll_oneOpen (st : Store) (x y : Fin 64) (hx : (st.settleAll st.scanAll)[x].state = .opened)
    (hy : (st.settleAll st.scanAll)[y].state = .opened) : x = y := by
  obtain ⟨f, -, rfl, -, settled⟩ := st.settleAll_sector x
  obtain ⟨g, -, rfl, -, settled'⟩ := st.settleAll_sector y
  rw [settled] at hx
  rw [settled'] at hy
  have first := (Sector.settled_guarded _ _ _).1 hx
  have second := (Sector.settled_guarded _ _ _).1 hy
  rw [Option.some.inj (first.1.symm.trans second.1)]

/-- The state of a store once its tables are rebuilt, STARTED and the first grant yet to come (R149). -/
def State.scanned (s : State) : State :=
  { s with
    store := { s.store with
      sectors := s.store.settleAll s.store.scanAll, nextSeq := sequenceAbove s.store.scanAll.highestSeq
      state := .ready, scan := s.store.scanAll
      faults := { s.store.faults with scanDamage := s.store.faults.scanDamage || s.store.scanAll.damage } }
    records := { s.records with
      index := s.store.scanAll.indexed, nextSerial := oneAbove s.store.scanAll.highestSerial } }

theorem State.finishScan_eq (s : State) : s.finishScan = (s.scanned.notify s.scanned.startedNotice).arbitrate := rfl

/-- The scan leaves the array guarded, one sector OPEN at most. -/
theorem State.keepsArray_finishScan (s : State) (scanning : s.store.state = .scanning) : s.KeepsArray s.finishScan := by
  rw [State.finishScan_eq]
  refine State.KeepsArray.trans ?_ (State.keepsArray_arbitrate _)
  refine State.KeepsArray.trans ?_ (State.spares_notify _ _).keepsArray
  intro h
  obtain ⟨-, -, -, -, idle⟩ := h
  obtain ⟨op, holder, work, commit⟩ := idle scanning
  have sectors : s.scanned.store.sectors = s.store.settleAll s.store.scanAll := by simp only [State.scanned]
  have table : s.scanned.store.Shielded := by
    unfold Store.Shielded
    rw [sectors]
    exact s.store.settleAll_shielded
  have one : s.scanned.store.OneOpen := by
    unfold Store.OneOpen
    rw [sectors]
    exact s.store.settleAll_oneOpen
  have unnamed : s.scanned.store.WorkShielded := by
    have same : s.scanned.store.work = s.store.work := by simp only [State.scanned]
    unfold Store.WorkShielded
    rw [same, work]
    exact fun i named => (List.not_mem_nil named).elim
  have ready : s.scanned.store.state = .ready := by simp only [State.scanned]
  have guard : s.scanned.TableGuarded := ⟨table, unnamed, ready⟩
  have opless : s.scanned.store.op = none := by simp only [State.scanned, op]
  have unheld : s.scanned.store.holder = none := by simp only [State.scanned, holder]
  have uncommitted : s.scanned.records.commit = none := by simp only [State.scanned, commit]
  have secured := guard.released (Store.onlyStray_none opless) (unheld ▸ fun h => (nomatch h)) uncommitted
  exact ⟨secured.guarded, fun _ => secured.oneOpen one⟩

end Sys2Proof.Machine
end

section
/-! PROOFS. What the store controller, the record manager and the arbiter do to the host link, the length of the host
work list and the bytes of the array (R101 to R109, R125 to R135). -/

namespace Sys2Proof.Machine

/-- The link stays in order, the request in hand in hand, and the host work list grows no longer. -/
structure State.Tidies (s t : State) : Prop where
  orderly : s.Orderly t
  work : t.store.work.length ≤ s.store.work.length

theorem State.Tidies.of_eq {s t : State} (link : t.link = s.link) (work : t.store.work = s.store.work) : s.Tidies t :=
  ⟨.of_eq link, by rw [work]⟩

theorem State.Tidies.trans {s t u : State} (h : s.Tidies t) (g : t.Tidies u) : s.Tidies u :=
  ⟨h.orderly.trans g.orderly, Nat.le_trans g.work h.work⟩

/-- And the bytes of the array stay as they are. -/
structure State.Settles (s t : State) : Prop extends State.Tidies s t where
  mem : ∀ x : Fin 64, t.store.sectors[x].mem = s.store.sectors[x].mem

theorem State.Settles.of_eq {s t : State} (link : t.link = s.link) (work : t.store.work = s.store.work)
    (mem : ∀ x : Fin 64, t.store.sectors[x].mem = s.store.sectors[x].mem) : s.Settles t := ⟨.of_eq link work, mem⟩

theorem State.Settles.refl (s : State) : s.Settles s := .of_eq rfl rfl fun _ => rfl

theorem State.Settles.trans {s t u : State} (h : s.Settles t) (g : t.Settles u) : s.Settles u :=
  ⟨h.toTidies.trans g.toTidies, fun x => (g.mem x).trans (h.mem x)⟩

theorem State.SparesStore.settles {s t : State} (h : s.SparesStore t) : s.Settles t :=
  ⟨⟨h.orderly, by rw [h.store]⟩, fun x => by rw [h.store]⟩

theorem State.settles_notify (s : State) (n : Notice) : s.Settles (s.notify n) := (s.spares_notify n).settles

theorem State.settles_modSector (s : State) (x : Fin 64) {f : Sector → Sector} (h : ∀ v, (f v).mem = v.mem) :
    s.Settles (s.modSector x f) := .of_eq rfl rfl (s.modSector_mem x h)

theorem State.settles_startErase (s : State) (x : Fin 64) (cause : Cause) : s.Settles (s.startErase x cause) :=
  ⟨⟨.of_eq rfl, List.length_filter_le _ _⟩, s.modSector_mem x fun _ => rfl⟩

theorem State.settles_programFault (s : State) (p : ProgramOp) : s.Settles (s.programFault p) :=
  State.Settles.trans (t := { s with store := { s.store with faults := { s.store.faults with programFail := true } } })
    (.of_eq rfl rfl fun _ => rfl) (State.settles_notify _ _)

theorem State.settles_eraseFault (s : State) (e : EraseOp) : s.Settles (s.eraseFault e) :=
  State.Settles.trans (t := { s with store := { s.store with faults := { s.store.faults with eraseFail := true } } })
    (.of_eq rfl rfl fun _ => rfl) (State.settles_notify _ _)

/-! ### The reservation (R125 to R129) -/

theorem State.settles_whenServed (s : State) (c : Commit) {begin_ : State → State} (h : s.Settles (begin_ s)) :
    s.Settles (s.whenServed c begin_) := by
  unfold State.whenServed
  split
  · exact h
  · exact .of_eq rfl rfl fun _ => rfl

theorem State.settles_noRoom (s : State) (k : Fin 4) (c : Commit) (r : FullReason) : s.Settles (s.noRoom k c r) := by
  have ends : s.Settles s.endCommit := .of_eq rfl rfl fun _ => rfl
  unfold State.noRoom
  dsimp only
  split
  · refine State.Settles.trans (t := { s.endCommit with records := { s.endCommit.records with full := some r } }) ?_
      (State.settles_notify _ _)
    exact .of_eq rfl rfl fun _ => rfl
  · exact ends

theorem State.settles_commitOverwrites (s : State) (c : Commit) (x : Fin 64) : s.Settles (s.commitOverwrites c x) := by
  refine State.Settles.trans ?_ (State.settles_notify _ _)
  refine State.Settles.trans ?_ (State.settles_startErase _ x .overwrite)
  refine State.Settles.trans (t := { s with records := { s.records with
    commit := some { c with phase := .reservation none, waiting := false }
    index := s.records.index.filter fun e => e.sector != x } }) ?_ (State.settles_modSector _ x fun _ => rfl)
  exact .of_eq rfl rfl fun _ => rfl

theorem State.settles_startRecordUnit (s : State) (i : Incident) (c : Commit) (g : Programming) :
    s.Settles (s.startRecordUnit i c g) := by
  obtain ⟨u, offset, bytes, run⟩ := s.startRecordUnit_begins i c g
  rw [run]
  exact .of_eq rfl rfl fun _ => rfl

theorem State.settles_unitBoundary (s : State) (k : Fin 4) (c : Commit) (g : Programming) :
    s.Settles (s.unitBoundary k c g) := by
  by_cases here : s.inc.table[k] = none
  · unfold State.unitBoundary
    rw [here]
    exact .refl s
  · obtain ⟨u, offset, bytes, run⟩ := s.unitBoundary_begins k c g here
    rw [run]
    exact .of_eq rfl rfl fun _ => rfl

theorem State.settles_placeRecord (s : State) (k : Fin 4) (c : Commit) (x : Fin 64) (offset : Nat) :
    s.Settles (s.placeRecord k c x offset) := by
  cases here : s.inc.table[k] with
  | none =>
    unfold State.placeRecord
    rw [here]
    exact .refl s
  | some n =>
    rw [State.placeRecord_eq here]
    have placed : s.Settles (s.committing k n) := .of_eq rfl rfl fun _ => rfl
    exact placed.trans (State.settles_whenServed _ _ (State.settles_startRecordUnit _ _ _ _))

theorem State.settles_closeOpen (s : State) : s.Settles s.closeOpen := by
  unfold State.closeOpen
  split
  · exact s.settles_modSector _ Sector.close_mem
  · exact .refl s

theorem State.settles_reserve (s : State) (k : Fin 4) (c : Commit) : s.Settles (s.reserve k c) := by
  have either (u : State) (from_ : u = s ∨ u = s.closeOpen) : s.Settles u := by
    obtain rfl | rfl := from_
    · exact .refl u
    · exact s.settles_closeOpen
  obtain ⟨u, r, from_, run⟩ | ⟨u, x, from_, -, run⟩ | ⟨x, -, run⟩ | ⟨x, offset, -, run⟩ := s.reserve_cases k c
  all_goals rw [run]
  · exact (either u from_).trans (u.settles_noRoom k c r)
  · exact (either u from_).trans (u.settles_whenServed c (u.settles_commitOverwrites c x))
  · exact s.settles_closeOpen.trans (State.settles_whenServed _ c (.of_eq rfl rfl fun _ => rfl))
  · exact s.settles_placeRecord k c x offset

theorem State.settles_recheck (s : State) (c : Commit) : s.Settles (s.recheck c) := by
  unfold State.recheck
  split
  · exact .of_eq rfl rfl fun _ => rfl
  · exact s.settles_reserve _ c

theorem State.settles_resumeCommit (s : State) : s.Settles s.resumeCommit := by
  unfold State.resumeCommit
  split
  · split
    · split
      · exact s.settles_unitBoundary _ _ _
      · exact s.settles_recheck _
    · exact .refl s
  · exact .refl s

/-! ### The arbiter (R107) -/

theorem State.settles_grantCommit (s : State) : s.Settles s.grantCommit := by
  unfold State.grantCommit
  split
  · exact .refl s
  next k _ _ =>
    split
    · exact .refl s
    next n _ =>
      refine State.Settles.trans (t := s.granted ⟨some k, n.recordSize, s.store.policy, .reservation none, false⟩) ?_
        (State.settles_reserve _ k _)
      exact .of_eq rfl rfl fun _ => rfl

theorem State.settles_grantReclaim (s : State) : s.Settles s.grantReclaim := by
  unfold State.grantReclaim
  split
  · refine State.Settles.trans (t := { s with store := { s.store with holder := some .background } }) ?_
      (State.settles_startErase _ _ _)
    exact .of_eq rfl rfl fun _ => rfl
  · exact .refl s

theorem State.settles_grantItem (s : State) (i : WorkItem) (rest : List WorkItem) (work : s.store.work = i :: rest) :
    s.Settles (s.grantItem i rest) := by
  have taken : s.Settles { s with store := { s.store with holder := some .hostItem, work := rest } } :=
    ⟨⟨.of_eq rfl, by rw [work]; exact Nat.le_succ _⟩, fun _ => rfl⟩
  unfold State.grantItem
  split
  · exact taken.trans (State.settles_startErase _ _ _)
  · exact taken.trans (.of_eq rfl rfl fun _ => rfl)

theorem State.settles_arbitrate (s : State) : s.Settles s.arbitrate := by
  unfold State.arbitrate
  split
  · split
    next i rest work => exact s.settles_grantItem i rest work
    next =>
      have commit : s.Settles (if s.records.full = none then s.grantCommit else s) := by
        split
        · exact s.settles_grantCommit
        · exact .refl s
      generalize (if s.records.full = none then s.grantCommit else s) = t at commit ⊢
      dsimp only
      split
      · exact commit.trans t.settles_grantReclaim
      · exact commit
  · exact .refl s

theorem State.settles_settleEvent (old s : State) : s.Settles (State.settleEvent old s) :=
  (State.spares_conclude old s).settles.trans (State.settles_arbitrate _)

/-! ### Operations end (R98, R105, R109, R127, R133 to R135) -/

theorem State.settles_abandon (s : State) (k : Fin 4) (r : AbandonReason) : s.Settles (s.abandon k r) := by
  unfold State.abandon
  split
  next n _ =>
    exact State.Settles.trans (t := s.endIncident k n) (.of_eq rfl rfl fun _ => rfl) (State.settles_notify _ _)
  next => exact .refl s

theorem State.settles_endCommit (s : State) : s.Settles s.endCommit := .of_eq rfl rfl fun _ => rfl

theorem State.settles_retain (s : State) (k : Fin 4) (c : Commit) (g : Programming) : s.Settles (s.retain k c g) := by
  unfold State.retain
  split
  · exact .refl s
  · refine State.Settles.trans ?_ (State.settles_endCommit _)
    refine State.Settles.trans ?_ (State.settles_notify _ _)
    exact (s.settles_modSector g.sector (f := Sector.gains c.size) fun _ => rfl).trans (.of_eq rfl rfl fun _ => rfl)

theorem State.settles_cancelMarked (s : State) (k : Fin 4) (c : Commit) (g : Programming) :
    s.Settles (s.cancelMarked k c g) :=
  ((s.settles_modSector g.sector (f := Sector.wastes c.size) fun _ => rfl).trans
      (State.settles_abandon _ k .cancelled)).trans (State.settles_endCommit _)

theorem State.settles_commitFails (s : State) (k : Fin 4) (p : ProgramOp) (g : Programming) :
    s.Settles (s.commitFails k p g) := by
  unfold State.commitFails
  split
  · exact .refl s
  next n _ =>
    have closed : s.Settles ((s.programFault p).modSector g.sector Sector.close) :=
      (s.settles_programFault p).trans (State.settles_modSector _ _ Sector.close_mem)
    dsimp only
    refine State.Settles.trans (closed.trans ?_) (State.settles_endCommit _)
    split
    · exact State.settles_abandon _ k .cancelled
    · split
      · exact State.settles_abandon _ k .storeFault
      · exact .of_eq rfl rfl fun _ => rfl

theorem State.settles_unitPassed (s : State) (p : ProgramOp) : s.Settles (s.unitPassed p) := by
  unfold State.unitPassed
  split
  · split
    next x seq _ =>
      exact (s.settles_modSector x (f := Sector.opened seq) fun _ => rfl).trans (State.settles_recheck _ _)
    · split
      · exact s.settles_whenServed _ (s.settles_unitBoundary _ _ _)
      · exact s.settles_retain _ _ _
      · exact s.settles_cancelMarked _ _ _
    · exact .refl s
  · exact .of_eq rfl rfl fun _ => rfl

theorem State.settles_unitFailed (s : State) (p : ProgramOp) : s.Settles (s.unitFailed p) := by
  unfold State.unitFailed
  split
  · split
    next x _ _ =>
      exact ((s.settles_programFault p).trans (State.settles_modSector _ x Sector.spoilt_mem)).trans
          (State.settles_recheck _ _)
    · exact s.settles_commitFails _ p _
    · exact .refl s
  · exact ((s.settles_programFault p).trans (State.settles_modSector _ _ Sector.close_mem)).trans
      (.of_eq rfl rfl fun _ => rfl)

theorem State.settles_eraseOver (s : State) (e : EraseOp) : s.Settles (s.eraseOver e) := by
  unfold State.eraseOver
  split
  · exact s.settles_recheck _
  · exact .of_eq rfl rfl fun _ => rfl

theorem State.tidies_endErase (s : State) (e : EraseOp) (passed : Bool) : s.Tidies (s.endErase e passed) := by
  unfold State.endErase
  dsimp only
  split
  · refine State.Tidies.trans ?_ (State.settles_eraseOver _ e).toTidies
    refine State.Tidies.trans ?_ (State.settles_notify _ _).toTidies
    exact .of_eq rfl rfl
  · refine State.Tidies.trans ?_ (State.settles_eraseOver _ e).toTidies
    refine State.Tidies.trans ?_ (State.settles_notify _ _).toTidies
    refine State.Tidies.trans ?_ (State.settles_eraseFault _ e).toTidies
    exact .of_eq rfl rfl

theorem State.settles_endRead (s : State) : s.Settles s.endRead := by
  unfold State.endRead
  refine State.Settles.trans ?_ (State.settles_arbitrate _)
  refine State.Settles.trans ?_ (State.settles_resumeCommit _)
  exact .of_eq rfl rfl fun _ => rfl

theorem State.tidies_finishScan (s : State) : s.Tidies s.finishScan := by
  rw [State.finishScan_eq]
  refine State.Tidies.trans ?_ (State.settles_arbitrate _).toTidies
  refine State.Tidies.trans ?_ (State.settles_notify _ _).toTidies
  exact .of_eq (by simp only [State.scanned]) (by simp only [State.scanned])

end Sys2Proof.Machine
end

section
/-! PROOFS. What every command keeps of the host link and the array, and the statements on queues, OPEN sectors and the
guarded array (R100, R101, R109, R111 to R114, R125, R178, R182). -/

namespace Sys2Proof.Machine

/-! ### Events and what they keep -/

/-- A command keeps the link in order, the host work list within its limit and the array guarded. -/
structure State.Upholds (s t : State) : Prop where
  order : s.link.InOrder → t.link.InOrder
  work : s.store.work.length ≤ 8 → t.store.work.length ≤ 8
  array : s.KeepsArray t

/-- And it leaves the request in hand in hand. -/
structure State.Acts (s t : State) : Prop where
  orderly : s.Orderly t
  work : s.store.work.length ≤ 8 → t.store.work.length ≤ 8
  array : s.KeepsArray t

theorem State.Acts.upholds {s t : State} (h : s.Acts t) : s.Upholds t :=
    ⟨fun order => (h.orderly order).1, h.work, h.array⟩

theorem State.Upholds.trans {s t u : State} (h : s.Upholds t) (g : t.Upholds u) : s.Upholds u :=
  ⟨fun order => g.order (h.order order), fun le => g.work (h.work le), h.array.trans g.array⟩

theorem State.Acts.trans {s t u : State} (h : s.Acts t) (g : t.Acts u) : s.Acts u :=
  ⟨h.orderly.trans g.orderly, fun le => g.work (h.work le), h.array.trans g.array⟩

theorem State.Acts.of_tidies {s t : State} (h : s.Tidies t) (array : s.KeepsArray t) : s.Acts t :=
  ⟨h.orderly, fun le => Nat.le_trans h.work le, array⟩

theorem State.SparesStore.acts {s t : State} (h : s.SparesStore t) : s.Acts t :=
  .of_tidies h.settles.toTidies h.keepsArray

theorem State.Acts.refl (s : State) : s.Acts s := (State.SparesStore.refl s).acts

/-- Nothing of store, records, incident table and link changes. -/
theorem State.Acts.of_eq {s t : State} (store : t.store = s.store) (records : t.records = s.records)
    (table : t.inc.table = s.inc.table) (link : t.link = s.link) : s.Acts t :=
  (State.SparesStore.of_eq store records table link).acts

theorem State.acts_settleEvent (old s : State) : s.Acts (State.settleEvent old s) :=
  .of_tidies (State.settles_settleEvent old s).toTidies (State.keepsArray_settleEvent old s)

theorem State.acts_arbitrate (s : State) : s.Acts s.arbitrate := 
  .of_tidies s.settles_arbitrate.toTidies s.keepsArray_arbitrate

/-! ### Requests (R179 to R181) -/

theorem State.upholds_relink (s : State) {l : Link} (k : Nat) (order : s.link.InOrder → l.InOrder) :
    s.Upholds { s with link := l, freeKey := k } := ⟨order, id, .of_same rfl rfl fun _ => id⟩

theorem State.upholds_link (s : State) {l : Link} (order : s.link.InOrder → l.InOrder) :
    s.Upholds { s with link := l } :=
  s.upholds_relink s.freeKey order

/-- A reply is placed for the request in hand, once the body has acted. -/
theorem State.upholds_answer (s : State) {p : Req} (handler : s.link.handler = .executing p) (q : Req) (halt : Bool)
    {body : State → State × Answer} (acts : ∀ u : State, u.Acts (body u).1) : s.Upholds (s.answer q halt body) := by
  unfold State.answer
  split
  · have begins := s.upholds_relink (l := s.link.reserve) (s.freeKey + 1) Link.InOrder.reserve
    have acted := acts { s with link := s.link.reserve, freeKey := s.freeKey + 1 }
    refine ⟨fun order => ?_, fun le => acted.work le, ?_⟩
    · obtain ⟨order', same⟩ := acted.orderly (begins.order order)
      exact order'.sendReserved (same.trans handler) _ halt
    · exact (begins.array.trans acted.array).trans (.of_same rfl rfl fun _ => id)
  · have begins := s.upholds_relink (s.freeKey + 1) id
    refine (begins.trans (acts _).upholds).trans (State.upholds_link _ fun order => ?_)
    exact order.place _ _ halt

theorem State.upholds_request (s : State) (q : Req) {run : State → State}
    (h : ∀ u : State, u.link.handler = .executing q → u.Upholds (run u)) : s.Upholds (s.request q run) := by
  have offered := s.upholds_link (l := s.link.offer q) fun order => order.offer q
  unfold State.request
  split
  next inHand => exact h s inHand.1
  · dsimp only
    split
    next taken => exact offered.trans (h _ taken.2)
    · exact offered

theorem State.upholds_serve (s : State) (i : Instr) {body : State → State × Answer}
    (acts : ∀ u : State, u.Acts (body u).1) :
    s.Upholds (s.serve i body) :=
  s.upholds_request _ fun u handler => u.upholds_answer handler _ false acts

theorem State.acts_beginRead (s : State) (job : ReadJob) : s.Acts (s.beginRead job) :=
  .of_tidies (.of_eq rfl rfl) (s.keepsArray_beginRead job)

theorem State.upholds_serveRead (s : State) (i : Instr) (check : State → Except Result ReadJob) :
    s.Upholds (s.serveRead i check) := by
  refine s.upholds_request _ fun u handler => ?_
  split
  next job _ => exact (u.acts_beginRead job).upholds
  · exact u.upholds_answer handler _ false .refl

/-! ### Requests to lines and match unit -/

theorem configureLineBody_acts (line : Byte) (cfg : LineArg) (s : State) : s.Acts (configureLineBody line cfg s).1 := by
  unfold configureLineBody
  split
  · exact .refl s
  next i _ =>
    split
    · exact .refl s
    · split
      · exact .refl s
      next c _ =>
        refine State.Acts.trans (t := s.configure i c) ?_ (State.spares_conclude s _).acts
        exact .of_eq rfl rfl rfl rfl

theorem startLineBody_acts (line : Byte) (pinHigh : Bool) (s : State) : s.Acts (startLineBody line pinHigh s).1 := by
  unfold startLineBody
  split
  · exact .refl s
  next i _ =>
    split
    · exact .refl s
    · exact ((s.spares_modLine i _).trans (State.spares_conclude s _)).acts

theorem stopLineBody_acts (line : Byte) (s : State) : s.Acts (stopLineBody line s).1 := by
  unfold stopLineBody
  split
  · exact .refl s
  next i _ =>
    split
    · exact .refl s
    · exact ((s.spares_modLine i fun _ => s.lines[i].stop).trans (State.spares_conclude s _)).acts

theorem getLineCountsBody_acts (line clear : Byte) (s : State) : s.Acts (getLineCountsBody line clear s).1 := by
  unfold getLineCountsBody
  split
  · dsimp only
    split
    · exact (s.spares_modLine _ _).acts
    · exact .refl s
  · exact .refl s

theorem setPoolMarkBody_acts (mark : Half) (s : State) : s.Acts (setPoolMarkBody mark s).1 := by
  unfold setPoolMarkBody
  split
  · exact .refl s
  · refine State.SparesStore.acts (State.SparesStore.trans ?_ (State.spares_announce s _))
    refine State.SparesStore.trans (t := { s with capture := { s.capture with lowMark := mark.toNat } }) ?_
      (State.spares_setPressure _ _)
    exact .of_eq rfl rfl rfl rfl

theorem writeEntryBody_acts (entry : Byte) (body : EntryDef) (s : State) : s.Acts (writeEntryBody entry body s).1 := by
  unfold writeEntryBody
  split
  · exact .refl s
  · split
    · exact .of_eq rfl rfl rfl rfl
    · exact .refl s

theorem readEntryBody_acts (entry : Byte) (s : State) : s.Acts (readEntryBody entry s).1 := by
  unfold readEntryBody
  split <;> exact .refl s

theorem clearEntryBody_acts (entry : Byte) (s : State) : s.Acts (clearEntryBody entry s).1 := by
  unfold clearEntryBody
  split
  · exact .refl s
  · exact .of_eq rfl rfl rfl rfl

theorem setNoticeMaskBody_acts (kinds : Half) (lines : Byte) (s : State) :
    s.Acts (setNoticeMaskBody kinds lines s).1 := by
  unfold setNoticeMaskBody
  split
  · exact .refl s
  · refine ⟨fun order => ⟨?_, rfl⟩, id, .of_same rfl rfl fun _ => id⟩
    obtain ⟨bounds, -, consistent⟩ := order
    refine ⟨bounds, ?_, consistent⟩
    unfold inSet alwaysKinds
    simp

/-! ### Requests to incidents (R79, R87, R88, R131) -/

theorem forceTriggerBody_acts (entry : Byte) (s : State) : s.Acts (forceTriggerBody entry s).1 := by
  unfold forceTriggerBody
  split
  · exact .refl s
  · split
    · split
      · exact .refl s
      next t opened => exact (s.spares_openIncident _ opened).acts.trans (State.acts_settleEvent s t)
    · exact .refl s

theorem closeIncidentBody_acts (id : Half) (s : State) : s.Acts (closeIncidentBody id s).1 := by
  unfold closeIncidentBody
  split
  · exact .refl s
  next k _ =>
    split
    · exact (s.spares_closeIncident k .host).acts.trans (State.acts_settleEvent s _)
    · exact .refl s

theorem State.abandon_table (s : State) (k j : Fin 4) (r : AbandonReason) (other : j ≠ k) :
    (s.abandon k r).inc.table[j] = s.inc.table[j] := by
  unfold State.abandon
  split
  · exact (vector_get_set _ k j _).trans (if_neg other)
  · rfl

theorem State.abandon_store (s : State) (k : Fin 4) (r : AbandonReason) : (s.abandon k r).store = s.store := by
  unfold State.abandon
  split <;> rfl

/-- The incident in a slot is cancelled: a commit in its reservation loses it (R131). -/
theorem State.acts_cancel (s : State) (k : Fin 4) :
    s.Acts { s.abandon k .cancelled with records := s.records.forget k } := by
  have abandoned := s.settles_abandon k .cancelled
  refine .of_tidies ⟨abandoned.orderly, abandoned.work⟩ (.of_commit
    (f := fun c => if c.incident = some k then { c with incident := none } else c) (s.abandon_store k .cancelled) rfl
    (fun c => ?_) fun c j named => ?_)
  · split <;> exact ⟨rfl, rfl⟩
  · split at named
    · exact (Option.some_ne_none j named.symm).elim
    next other =>
      refine ⟨named, fun filled => ?_⟩
      have apart : j ≠ k := by
        rintro rfl
        exact other named
      exact (congrArg (· ≠ none) (s.abandon_table k j .cancelled apart)).mpr filled

theorem State.spares_setIncident (s : State) (k : Fin 4) (n : Incident) : s.SparesStore (s.setIncident k (some n)) :=
  .of_set k n rfl rfl rfl rfl

theorem cancelIncidentBody_acts (id : Half) (s : State) : s.Acts (cancelIncidentBody id s).1 := by
  unfold cancelIncidentBody
  split
  · exact .refl s
  next k _ =>
    split
    · exact .refl s
    next n _ =>
      split
      · exact (s.spares_setIncident k _).acts
      · exact (s.acts_cancel k).trans (State.acts_settleEvent s _)

/-! ### Requests to read out -/

theorem listFramesBody_acts (line list present : Byte) (after : Half) (max : Byte) (s : State) :
    s.Acts (listFramesBody line list present after max s).1 := by
  unfold listFramesBody
  split
  · exact .refl s
  · split
    · exact .refl s
    · split <;> exact .refl s

theorem readFrameBody_acts (line : Byte) (seq : Half) (s : State) : s.Acts (readFrameBody line seq s).1 := by
  unfold readFrameBody
  split
  · exact .refl s
  · split <;> exact .refl s

theorem takeFramesBody_acts (line count : Byte) (s : State) : s.Acts (takeFramesBody line count s).1 := by
  unfold takeFramesBody
  split
  · split
    · exact .refl s
    · exact .of_eq rfl rfl rfl rfl
  · exact .refl s

theorem State.spares_release (s : State) (i : Fin 8) (n : Nat) : s.SparesStore (s.release i n) := by
  unfold State.release
  rw [State.evalPressure_eq]
  refine State.SparesStore.trans ?_ (State.spares_announce s _)
  refine State.SparesStore.trans ?_ (State.spares_modLine _ i _)
  refine State.SparesStore.trans (t := { s with capture := s.capture.release i n }) ?_ (State.spares_setPressure _ _)
  exact .of_eq rfl rfl rfl rfl

theorem releaseFramesBody_acts (line : Byte) (seq : Half) (s : State) : s.Acts (releaseFramesBody line seq s).1 := by
  unfold releaseFramesBody
  split
  · exact .refl s
  next i _ =>
    split
    · exact .refl s
    · split
      · exact .refl s
      · exact (s.spares_release i _).acts

theorem listRecordsBody_acts (first : Word) (filter max : Byte) (s : State) :
    s.Acts (listRecordsBody first filter max s).1 := by
  unfold listRecordsBody
  split
  · exact .refl s
  · split <;> exact .refl s

end Sys2Proof.Machine
end

section
/-! PROOFS. Requests to the store, resets and every command: the statements on queues, OPEN sectors and the guarded
array (R109 to R114, R117, R118, R137, R140, R178, R182). -/

namespace Sys2Proof.Machine

/-! ### Requests that change the sector table (R106, R110, R112, R137) -/

/-- A request changes sector table and work list under the array in use: sectors that the array is at keep their states,
the operation's sector its protection, and what stands in table and list is UNLOCKED. -/
structure State.Retables (s t : State) : Prop where
  op : t.store.op = s.store.op
  holder : t.store.holder = s.store.holder
  state : t.store.state = s.store.state
  commit : t.records.commit = s.records.commit
  table : t.inc.table = s.inc.table
  erasing : ∀ x : Fin 64, s.store.sectors[x].state = .erasing → t.store.sectors[x].state = .erasing
  commits : ∀ x : Fin 64, s.commitSector x = true → t.store.sectors[x].state = s.store.sectors[x].state
  protection : ∀ o, s.store.op = some o → t.store.sectors[o.sector].protection = s.store.sectors[o.sector].protection
  opened : ∀ x : Fin 64, t.store.sectors[x].state = .opened → s.store.sectors[x].state = .opened
  shielded : t.store.Shielded
  work : t.store.WorkShielded

section
variable {s t : State}

theorem State.Retables.opening (h : s.Retables t) : t.records.opening = s.records.opening := by
  unfold Records.opening
  rw [h.commit]

theorem State.Retables.commitSector (h : s.Retables t) {x : Fin 64} (here : s.commitSector x = true) :
    t.commitSector x = true := by
  have state := h.commits x here
  unfold State.commitSector at here ⊢
  rw [state, h.holder, h.opening]
  exact here

theorem State.Retables.keeps (h : s.Retables t) (guarded : s.arrayGuarded) (ready : s.store.state = .ready) :
    t.arrayGuarded ∧ (s.oneOpenSector → t.oneOpenSector) := by
  obtain ⟨-, -, op, commit, -⟩ := guarded
  refine ⟨⟨h.shielded, h.work, ?_, ?_, fun scanning => ?_⟩, fun one => ⟨fun x y hx hy => ?_, fun opening x hx => ?_⟩⟩
  · cases here : s.store.op with
    | none => exact State.opGuarded_none (h.op.trans here)
    | some o =>
      cases o with
      | erase e =>
        obtain ⟨erasing, unlocked, cause, reserves⟩ := (State.opGuarded_erase here).mp op
        refine (State.opGuarded_erase (h.op.trans here)).mpr
            ⟨h.erasing _ erasing, (h.protection _ here).trans unlocked, ?_, ?_⟩
        · rw [h.holder]; exact cause
        · rw [h.commit]; exact reserves
      | program p =>
        obtain ⟨unlocked, held⟩ := (State.opGuarded_program here).mp op
        refine (State.opGuarded_program (h.op.trans here)).mpr ⟨(h.protection _ here).trans unlocked, ?_⟩
        split
        next cause =>
          rw [if_pos cause] at held
          exact ⟨h.holder.trans held.1, h.commitSector held.2⟩
        next cause =>
          rw [if_neg cause] at held
          exact h.holder.trans held
  · cases here : s.records.commit with
    | none => exact State.commitGuarded_none (h.commit.trans here)
    | some c =>
      obtain ⟨holder, slots, waits, phase⟩ := (State.commitGuarded_some here).mp commit
      refine (State.commitGuarded_some (h.commit.trans here)).mpr ⟨h.holder.trans holder, ?_, ?_, ?_⟩
      · rw [h.table]; exact slots
      · rw [h.op]; exact waits
      · cases at_ : c.phase with
        | reservation o =>
          cases o with
          | none => trivial
          | some o =>
            rw [at_] at phase
            obtain ⟨p, programs, rest⟩ := phase
            exact ⟨p, h.op.trans programs, rest⟩
        | programming g =>
          rw [at_] at phase
          exact (h.commits _ (State.commitSector_opened holder phase)).trans phase
  · exact (nomatch ready.symm.trans (h.state.symm.trans scanning))
  · exact one.1 x y (h.opened x hx) (h.opened y hy)
  · exact one.2 (h.opening ▸ opening) x (h.opened x hx)

/-- The sectors are only eased, their states kept where the array is at work. -/
theorem State.Retables.of_eases (shielded : s.store.Shielded) (eases : s.store.Eases t.store)
    (op : t.store.op = s.store.op) (holder : t.store.holder = s.store.holder) (state : t.store.state = s.store.state)
    (commit : t.records.commit = s.records.commit) (table : t.inc.table = s.inc.table)
    (states : ∀ x : Fin 64, s.store.sectors[x].state = .erasing ∨ s.commitSector x = true →
      t.store.sectors[x].state = s.store.sectors[x].state) (work : t.store.WorkShielded) : s.Retables t where
  op := op
  holder := holder
  state := state
  commit := commit
  table := table
  erasing x here := (states x (.inl here)).trans here
  commits x here := states x (.inr here)
  protection o _ := (eases o.sector).protection
  opened x := (eases x).opened
  shielded := shielded.eased eases
  work := work

/-- Only policy, sticky faults and marks change. -/
theorem State.KeepsArray.of_settings (sectors : t.store.sectors = s.store.sectors) (op : t.store.op = s.store.op)
    (holder : t.store.holder = s.store.holder) (state : t.store.state = s.store.state)
        (work : t.store.work = s.store.work)
    (commit : t.records.commit = s.records.commit) (table : t.inc.table = s.inc.table) : s.KeepsArray t := by
  intro guarded
  have opening : t.records.opening = s.records.opening := by
    unfold Records.opening
    rw [commit]
  have at_ (x : Fin 64) : t.commitSector x = s.commitSector x := by
    unfold State.commitSector
    rw [sectors, holder, opening]
  refine ⟨?_, ?_⟩
  · unfold State.arrayGuarded State.opGuarded State.commitGuarded at guarded ⊢
    simp only [at_, sectors, op, holder, state, work, commit, table]
    exact guarded
  · unfold State.oneOpenSector
    rw [sectors, opening]
    exact id

end

/-- An accepted request to the store in its guard: the effects on the table, then the arbiter. -/
theorem State.acts_accepted (s : State) (answer : Answer) {t : State} (tidies : s.Orderly t)
    (work : s.store.work.length ≤ 8 → t.store.work.length ≤ 8) (array : s.KeepsArray t) :
    s.Acts (t.accepted answer).1 := State.Acts.trans ⟨tidies, work, array⟩ t.acts_arbitrate

theorem setStorePolicyBody_acts (policy : Byte) (s : State) : s.Acts (setStorePolicyBody policy s).1 := by
  unfold setStorePolicyBody
  split
  · exact .refl s
  · split
    · exact .refl s
    · refine s.acts_accepted _ (.of_eq rfl) id ?_
      exact .of_settings rfl rfl rfl rfl rfl rfl rfl

/-- A sector that no work holds keeps its guard under a new protection. -/
theorem Sector.protect_shields (level : Protection) {v : Sector} (unpending : v.pending = false)
    (opened : v.state = .opened → v.protection = .unlocked) :
    ((v.protect level).state = .opened ∨ (v.protect level).pending = true → (v.protect level).protection = .unlocked)
      ∧ ((v.protect level).state = .opened → v.state = .opened) := by
  unfold Sector.protect
  split
  · exact ⟨fun raised => raised.elim opened fun h => (nomatch unpending.symm.trans h), id⟩
  next =>
    split
    · have eases := Sector.eases_close { v with protection := level }
      refine ⟨fun raised => eases.protection.trans ?_, fun h => (Sector.close_unopened _ h).elim⟩
      obtain h | h := raised
      · exact (Sector.close_unopened _ h).elim
      · exact (eases.pending h).elim (fun h => (nomatch unpending.symm.trans h)) id
    next locked =>
      have eases := Sector.eases_settle { v with protection := level }
      refine ⟨fun raised => eases.protection.trans ?_, eases.opened⟩
      obtain h | h := raised
      · exact absurd (opened (eases.opened h)) locked
      · exact (eases.pending h).elim (fun h => (nomatch unpending.symm.trans h)) id

theorem Store.inWork_eq_false {st : Store} {x : Fin 64} (h : st.inWork x = false) : st.sectors[x].state ≠ .erasing
    ∧ st.sectors[x].pending = false ∧ (∀ i ∈ st.work, i.sector ≠ x) ∧ st.itemHolds x = false := by
  unfold Store.inWork at h
  simp only [Bool.or_eq_false_iff, beq_eq_false_iff_ne, List.any_eq_false, beq_iff_eq] at h
  obtain ⟨⟨⟨erasing, pending⟩, work⟩, holds⟩ := h
  exact ⟨erasing, pending, work, holds⟩

theorem StoreState.ready_of_ne {v : StoreState} (h : v ≠ .scanning) : v = .ready := by
  cases v with
  | scanning => exact absurd rfl h
  | ready => rfl

/-- The operation in progress takes place in a sector that work or the commit holds. -/
theorem State.arrayGuarded.apart {s : State} (h : s.arrayGuarded) {x : Fin 64} (work : s.store.inWork x = false)
    (commits : s.commitSector x = false) {o : ArrayOp} (op : s.store.op = some o) : o.sector ≠ x := by
  obtain ⟨erasing, -, -, holds⟩ := Store.inWork_eq_false work
  obtain ⟨-, -, guarded, -⟩ := h
  rintro rfl
  cases o with
  | erase e => exact erasing ((State.opGuarded_erase op).mp guarded).1
  | program p =>
    obtain ⟨-, held⟩ := (State.opGuarded_program op).mp guarded
    split at held
    · exact (nomatch commits.symm.trans held.2)
    · unfold Store.itemHolds at holds
      rw [held, op, beq_self_eq_true, Option.any_some, beq_self_eq_true] at holds
      exact (nomatch holds)

theorem State.retables_protect {s : State} (h : s.arrayGuarded) {x : Fin 64} (level : Protection)
    (work : s.store.inWork x = false) (commits : s.commitSector x = false) {t : State}
    (store : t.store = (s.modSector x (Sector.protect level)).store) (commit : t.records.commit = s.records.commit)
    (table : t.inc.table = s.inc.table) : s.Retables t := by
  obtain ⟨erasing, pending, unnamed, -⟩ := Store.inWork_eq_false work
  obtain ⟨here, opened⟩ := Sector.protect_shields level pending fun o => h.1 x (.inl o)
  have other (y : Fin 64) (hy : y ≠ x) : t.store.sectors[y] = s.store.sectors[y] := by
    rw [store]
    exact s.modSector_other x y hy _
  have same : t.store.sectors[x] = s.store.sectors[x].protect level := by
    rw [store]
    exact s.modSector_same x _
  refine ⟨by rw [store]; rfl, by rw [store]; rfl, by rw [store]; rfl, commit, table, fun y at_ => ?_, fun y at_ => ?_,
    fun o op => ?_, fun y at_ => ?_, fun y raised => ?_, fun i named => ?_⟩
  · rw [other y (fun e => erasing (e ▸ at_))]; exact at_
  · rw [other y fun e => Bool.false_ne_true (commits.symm.trans (e ▸ at_))]
  · rw [other _ (h.apart work commits op)]
  · by_cases e : y = x
    · subst e; rw [same] at at_; exact opened at_
    · rw [other y e] at at_; exact at_
  · by_cases e : y = x
    · subst e; rw [same] at raised ⊢; exact here raised
    · rw [other y e] at raised ⊢; exact h.1 y raised
  · have named : i ∈ s.store.work := by rw [store] at named; exact named
    rw [other _ (unnamed i named)]
    exact h.2.1 i named

theorem State.protect_acts (s : State) (x : Fin 64) (level : Protection) : s.Acts (s.protect x level).1 := by
  unfold State.protect
  dsimp only
  split
  · exact .refl s
  next ready =>
    split
    · exact .refl s
    · split
      · exact .refl s
      next free =>
        simp only [not_or, Bool.not_eq_true] at free
        obtain ⟨work, commits⟩ := free
        refine State.Acts.trans ?_ (State.acts_arbitrate _)
        split
        · exact ⟨.of_eq rfl, id, fun h =>
            (State.retables_protect h level work commits rfl rfl rfl).keeps h (StoreState.ready_of_ne ready)⟩
        · exact ⟨.of_eq rfl, id, fun h =>
            (State.retables_protect h level work commits rfl rfl rfl).keeps h (StoreState.ready_of_ne ready)⟩

theorem setProtectionBody_acts (sector level : Byte) (s : State) : s.Acts (setProtectionBody sector level s).1 := by
  unfold setProtectionBody
  split
  · exact s.protect_acts _ _
  · exact .refl s

/-- An item joins the host work list. -/
theorem Store.WorkShielded.append {a b : Store} (h : a.WorkShielded) (eases : a.Eases b) {i : WorkItem}
    (work : b.work = a.work ++ [i]) (unlocked : a.sectors[i.sector].protection = .unlocked) : b.WorkShielded := by
  intro j named
  rw [(eases j.sector).protection]
  rw [work, List.mem_append, List.mem_singleton] at named
  obtain named | rfl := named
  · exact h j named
  · exact unlocked

/-- The sector of an erase item that is added (R110). -/
def Sector.toErase (gone : Nat) (v : Sector) : Sector :=
  { v.close with pending := true, live := 0, dead := v.close.dead + gone }

theorem Sector.eases_toErase (gone : Nat) {v : Sector} (unlocked : v.protection = .unlocked) :
    v.Eases (v.toErase gone) :=
  ⟨v.eases_close.protection, v.eases_close.opened, fun _ => .inr unlocked⟩

theorem State.keepsArray_addErase (s : State) (x : Fin 64) (ready : s.store.state = .ready)
    (unlocked : s.store.sectors[x].protection = .unlocked) (still : s.store.sectors[x].state ≠ .erasing)
    (commits : s.commitSector x = false) : s.KeepsArray (s.addErase x) := by
  intro h
  let f := Sector.toErase (lengthsOf (s.records.index.filter fun e => e.sector == x))
  have eases : s.store.Eases (s.addErase x).store := s.eases_modSector x (f := f) (Sector.eases_toErase _ unlocked)
  refine State.Retables.keeps ?_ h ready
  refine .of_eases h.1 eases rfl rfl rfl rfl rfl (fun y at_ => ?_) (Store.WorkShielded.append h.2.1 eases rfl unlocked)
  have apart : y ≠ x := by
    rintro rfl
    exact at_.elim still fun here => Bool.false_ne_true (commits.symm.trans here)
  exact congrArg Sector.state (s.modSector_other x y apart f)

theorem length_append_singleton_le {α : Type} {l : List α} {a : α} {n : Nat} (room : ¬ n ≤ l.length) :
    (l ++ [a]).length ≤ n := by
  rw [List.length_append, List.length_singleton]
  omega

theorem State.eraseSector_acts (s : State) (x : Fin 64) : s.Acts (s.eraseSector x).1 := by
  unfold State.eraseSector
  dsimp only
  split
  · exact .refl s
  next ready =>
    split
    · exact .refl s
    next unlocked =>
      split
      · exact .refl s
      next still =>
        split
        · exact .refl s
        next commits =>
          split
          · exact .refl s
          next room =>
            exact s.acts_accepted _ (.of_eq rfl) (fun _ => length_append_singleton_le room)
              (s.keepsArray_addErase x (StoreState.ready_of_ne ready) (not_not.mp unlocked) (not_or.mp still).1
                (Bool.not_eq_true _ ▸ commits))

theorem eraseSectorBody_acts (sector : Byte) (s : State) : s.Acts (eraseSectorBody sector s).1 := by
  unfold eraseSectorBody
  split
  · exact s.eraseSector_acts _
  · exact .refl s

theorem State.keepsArray_discard (s : State) (e : IndexEntry) (ready : s.store.state = .ready)
    (unlocked : s.store.sectors[e.sector].protection = .unlocked) : s.KeepsArray (s.discard e) := by
  intro h
  let f (v : Sector) : Sector := { v with live := v.live - 1, dead := v.dead + e.length }.settle
  have settles (v : Sector) : v.Eases (f v) := Sector.Eases.settled ⟨rfl, id, .inl⟩
  have state (v : Sector) : (f v).state = v.state := Sector.settle_state _
  have eases : s.store.Eases (s.discard e).store := s.eases_modSector e.sector (settles _)
  refine State.Retables.keeps ?_ h ready
  refine .of_eases h.1 eases rfl rfl rfl rfl rfl (fun y _ => ?_) (Store.WorkShielded.append h.2.1 eases rfl unlocked)
  by_cases here : y = e.sector
  · subst here
    exact (congrArg Sector.state (s.modSector_same e.sector f)).trans (state _)
  · exact congrArg Sector.state (s.modSector_other e.sector y here f)

theorem discardRecordBody_acts (serial : Word) (s : State) : s.Acts (discardRecordBody serial s).1 := by
  unfold discardRecordBody
  split
  · exact .refl s
  next ready =>
    split
    · exact .refl s
    next e _ =>
      split
      · exact .refl s
      next unlocked =>
        split
        · exact .refl s
        next room =>
          exact s.acts_accepted _ (.of_eq rfl) (fun _ => length_append_singleton_le room)
            (s.keepsArray_discard e (StoreState.ready_of_ne ready) (not_not.mp unlocked))

/-! ### Resets (R117, R118, R140) -/

/-- A reset empties the sector table and stops the array. -/
theorem State.upholds_cleared {s t : State} {straps : BitVec 2} {sectors : Vector Sector 64} {faults : StoreFaults}
    {cause : ResetCause} (link : t.link = .reset straps) (store : t.store = .scanning sectors faults cause)
    (records : t.records = .reset)
    (emptied : ∀ x : Fin 64, ∃ m complete p, t.store.sectors[x] = .emptied m complete p) : s.Upholds t := by
  have unopened (x : Fin 64) : t.store.sectors[x].state ≠ .opened ∧ t.store.sectors[x].pending ≠ true := by
    obtain ⟨m, complete, p, empty⟩ := emptied x
    rw [empty]
    exact ⟨fun h => (nomatch h), fun h => (nomatch h)⟩
  have op : t.store.op = none := by rw [store]; rfl
  have holder : t.store.holder = none := by rw [store]; rfl
  have work : t.store.work = [] := by rw [store]; rfl
  have commit : t.records.commit = none := by rw [records]; rfl
  refine ⟨fun _ => link ▸ Link.reset_inOrder straps, fun _ => by rw [work]; exact Nat.zero_le 8,
      fun _ => ⟨⟨?_, ?_, ?_, ?_, ?_⟩,
    fun _ => ⟨fun x _ hx => absurd hx (unopened x).1, fun _ x => (unopened x).1⟩⟩⟩
  · exact fun x raised => raised.elim (fun h => absurd h (unopened x).1) fun h => absurd h (unopened x).2
  · rw [work]; exact fun _ h => (List.not_mem_nil h).elim
  · exact State.opGuarded_none op
  · exact State.commitGuarded_none commit
  · exact fun _ => ⟨op, holder, work, commit⟩

theorem State.upholds_hardReset (s : State) (straps : BitVec 2) : s.Upholds (s.hardReset straps) :=
  State.upholds_cleared rfl rfl rfl fun x => ⟨_, _, _, s.hardReset_sector straps x⟩

theorem State.upholds_restart (s : State) : s.Upholds s.restart :=
  State.upholds_cleared rfl rfl rfl fun x => ⟨_, _, _, s.restart_sector x⟩

end Sys2Proof.Machine
end

section
/-! PROOFS. Every command and every step: queues in order, one OPEN sector, the array guarded (O5, O9, O10). -/

namespace Sys2Proof.Machine

/-- What a command upholds when it answers a next state. -/
def Upholding (s : State) (o : Host.Outcome State Fault Refusal) : Prop := ∀ t, o = .next t → s.Upholds t

theorem Upholding.next {s t : State} (h : s.Upholds t) : Upholding s (.next t) := by
  rintro u ⟨⟩
  exact h

theorem Upholding.acts {s t : State} (h : s.Acts t) : Upholding s (.next t) := .next h.upholds

theorem Upholding.refl (s : State) : Upholding s (.next s) := .acts (.refl s)

theorem Upholding.serve {s : State} (i : Instr) {body : State → State × Answer} (h : ∀ u : State, u.Acts (body u).1) :
    Upholding s (.next (s.serve i body)) := .next (s.upholds_serve i h)

theorem State.acts_advanceTo (s : State) (p : Stamp) : s.Acts (s.advanceTo p) := .of_eq rfl rfl rfl rfl

/-! ### Events of the lines and the match unit -/

theorem State.acts_classify (s : State) (i : Fin 8) : s.Acts (s.classify i) := by
  unfold State.classify
  split
  · exact .refl s
  · split
    · exact .refl s
    · refine State.Acts.trans ?_ (State.acts_settleEvent s _)
      exact (((s.spares_modLine i _).trans (State.spares_classifyFrame _ i _ _)).trans
          (State.spares_modLine _ i _)).acts

theorem State.acts_paced (s : State) (i : Fin 8) {event : State → State} (h : ∀ u : State, u.SparesStore (event u)) :
    s.Acts (s.paced i event) := by
  unfold State.paced
  split
  · exact (h s).acts
  · exact (s.acts_classify i).trans (h _).acts

theorem execCharacterCompletion_upholds (i : Fin 8) (bits : Byte) (parityBit stopHigh : Bool) (s : State) :
    Upholding s (execCharacterCompletion i bits parityBit stopHigh s) := by
  unfold execCharacterCompletion
  dsimp only
  split
  · exact .acts (s.acts_paced i fun u => u.spares_completeCharacter i bits parityBit stopHigh)
  · exact .refl s

theorem execIdleTimerExpiry_upholds (i : Fin 8) (s : State) : Upholding s (execIdleTimerExpiry i s) := by
  unfold execIdleTimerExpiry
  dsimp only
  split
  · exact .refl s
  · split
    · exact .acts ((s.acts_advanceTo _).trans (State.acts_paced _ i fun u => u.spares_idleExpires i))
    · exact .refl s

theorem execTrigInEdgeAccepted_upholds (s : State) : Upholding s (execTrigInEdgeAccepted s) := by
  unfold execTrigInEdgeAccepted
  split
  · exact .refl s
  next e _ =>
    refine .acts (State.Acts.trans (s.acts_advanceTo (pointAfterUs e.elapsed 1)) ?_)
    generalize s.advanceTo (pointAfterUs e.elapsed 1) = u
    dsimp only
    generalize Matcher.evaluate _ _ _ = r
    refine State.Acts.trans (t := { u with matcher := r.1 }) (.of_eq rfl rfl rfl rfl) ?_
    exact (State.spares_fire _ _ _).acts.trans (State.acts_settleEvent u _)

theorem execHoldoffExpiry_upholds (e : Fin 16) (s : State) : Upholding s (execHoldoffExpiry e s) := by
  unfold execHoldoffExpiry
  split
  · exact .refl s
  · exact .acts (.of_eq rfl rfl rfl rfl)

theorem execPostTimerExpiry_upholds (k : Fin 4) (s : State) : Upholding s (execPostTimerExpiry k s) := by
  unfold execPostTimerExpiry
  split
  · exact .refl s
  · exact .acts (((s.acts_advanceTo _).trans (State.spares_closeIncident _ k .time).acts).trans
      (State.acts_settleEvent _ _))

/-! ### Events of the host link -/

theorem execHostByteReceived_upholds (byte : Option Byte) (s : State) : Upholding s (execHostByteReceived byte s) := by
  have expired (order : s.link.InOrder) := order.expireBefore s.time.elapsed
  unfold execHostByteReceived
  dsimp only
  split
  · refine .next (s.upholds_link fun order => ?_)
    exact Link.InOrder.receive (a := { s.link.expireBefore s.time.elapsed with lastByteAt := s.time.elapsed })
      ((expired order).hunts rfl) _
  · exact .next (s.upholds_link fun order => (expired order).receiveBroken)

theorem execInterByteTimeout_upholds (s : State) : Upholding s (execInterByteTimeout s) := by
  have expires (u : State) : u.Upholds { u with link := u.link.expire } := u.upholds_link fun order => order.hunts rfl
  unfold execInterByteTimeout
  split
  · exact .refl s
  all_goals exact .next ((s.acts_advanceTo _).upholds.trans (expires _))

theorem execTxFrameEnd_upholds (s : State) : Upholding s (execTxFrameEnd s) := by
  unfold execTxFrameEnd
  split
  · exact .next s.upholds_restart
  · split
    · exact .refl s
    · refine .next (s.upholds_link fun ⟨bounds, masks, replies, idle, held, _⟩ => ?_)
      exact Link.InOrder.begin (a := { s.link with tx := none }) bounds masks (fun full => (replies full).2) idle held _

/-! ### Events of the array -/

theorem State.tidies_leaveBytes (s : State) (p : ProgramOp) (bytes : List Byte) : s.Tidies (s.leaveBytes p bytes) :=
  .of_eq rfl rfl

/-- A unit's cells take their values, and the holder goes on, or fails. -/
theorem State.acts_unitEnd (s : State) {p : ProgramOp} (op : s.store.op = some (.program p)) (bytes : List Byte)
    (passed : Prop) [Decidable passed] :
    s.Acts (if passed then (s.leaveBytes p bytes).unitPassed p else (s.leaveBytes p bytes).unitFailed p) := by
  refine .of_tidies ?_ (State.keepsArray_unitEnd op bytes passed)
  split
  · exact (s.tidies_leaveBytes p bytes).trans (State.settles_unitPassed _ p).toTidies
  · exact (s.tidies_leaveBytes p bytes).trans (State.settles_unitFailed _ p).toTidies

theorem execProgramUnitEnd_upholds (cells : List Byte) (s : State) : Upholding s (execProgramUnitEnd cells s) := by
  unfold execProgramUnitEnd
  split
  next p op =>
    split
    · exact .acts ((s.acts_unitEnd op _ _).trans (State.acts_settleEvent s _))
    · exact .refl s
  · exact .refl s

theorem execProgramUnitTimeout_upholds (cells : List Byte) (s : State) :
    Upholding s (execProgramUnitTimeout cells s) := by
  unfold execProgramUnitTimeout
  split
  next p op =>
    have advanced := s.acts_advanceTo (pointAfterUs p.since Config.programLimit)
    generalize timed : s.advanceTo (pointAfterUs p.since Config.programLimit) = u at advanced ⊢
    have op : u.store.op = some (.program p) := by rw [← timed]; exact op
    have ended := u.acts_unitEnd op (drivenBytes (u.formerBytes p) [] cells) False
    rw [if_neg id] at ended
    exact .acts ((advanced.trans ended).trans (State.acts_settleEvent u _))
  · exact .refl s

theorem State.acts_endErase (s : State) {e : EraseOp} (op : s.store.op = some (.erase e)) (passed : Bool) :
    s.Acts (s.endErase e passed).arbitrate :=
  (State.Acts.of_tidies (s.tidies_endErase e passed) (State.keepsArray_endErase op passed)).trans
      (State.acts_arbitrate _)

theorem execEraseEnd_upholds (blank : Bool) (s : State) : Upholding s (execEraseEnd blank s) := by
  unfold execEraseEnd
  split
  next e op =>
    split
    · split
      · exact .acts (s.acts_endErase op blank)
      · exact .refl s
    · exact .refl s
  · exact .refl s

theorem execEraseTimeout_upholds (s : State) : Upholding s (execEraseTimeout s) := by
  unfold execEraseTimeout
  split
  next e op =>
    split
    · exact .acts ((s.acts_advanceTo _).trans (State.acts_endErase (s.advanceTo _) op false))
    · exact .refl s
  · exact .refl s

theorem execArrayReadDone_upholds (s : State) : Upholding s (execArrayReadDone s) := by
  unfold execArrayReadDone
  split
  next handler =>
    split
    · exact .refl s
    · exact .next (s.upholds_answer handler _ false fun u => .of_tidies u.settles_endRead.toTidies u.keepsArray_endRead)
  · exact .refl s

/-! ### Every command, every step -/

/-- Every command that answers a next state keeps queues, link and array. -/
theorem exec_upholds (c : Instr) (s : State) : Upholding s (exec c s) := by
  cases c
  case hardReset straps => exact .next (s.upholds_hardReset straps)
  case restartTakesEffect =>
    simp only [exec, execRestartTakesEffect]
    split
    · exact .next s.upholds_restart
    · exact .refl s
  case characterCompletion i bits parityBit stopHigh =>
    exact execCharacterCompletion_upholds i bits parityBit stopHigh s
  case idleTimerExpiry i => exact execIdleTimerExpiry_upholds i s
  case classification i => exact .acts (s.acts_classify i)
  case trigInRisingEdge => exact .acts (.of_eq rfl rfl rfl rfl)
  case trigInEdgeAccepted => exact execTrigInEdgeAccepted_upholds s
  case holdoffExpiry e => exact execHoldoffExpiry_upholds e s
  case postTimerExpiry k => exact execPostTimerExpiry_upholds k s
  case hostByteReceived byte => exact execHostByteReceived_upholds byte s
  case interByteTimeout => exact execInterByteTimeout_upholds s
  case txFrameEnd => exact execTxFrameEnd_upholds s
  case programUnitEnd cells => exact execProgramUnitEnd_upholds cells s
  case programUnitTimeout cells => exact execProgramUnitTimeout_upholds cells s
  case eraseEnd blank => exact execEraseEnd_upholds blank s
  case eraseTimeout => exact execEraseTimeout_upholds s
  case arrayReadDone => exact execArrayReadDone_upholds s
  case scanFinish =>
    simp only [exec, execScanFinish]
    split
    next scanning => exact .acts (.of_tidies s.tidies_finishScan (s.keepsArray_finishScan scanning))
    · exact .refl s
  case unknownRequest tag payload =>
    simp only [exec, execUnknownRequest]
    split
    · exact .refl s
    · exact .serve _ .refl
  case identify => exact .serve _ .refl
  case getStatus => exact .serve _ .refl
  case setTime tag time => exact .serve _ fun u => .of_eq rfl rfl rfl rfl
  case setNoticeMask tag kinds lines => exact .serve _ (setNoticeMaskBody_acts kinds lines)
  case clearFaults =>
    exact .serve _ fun u => .of_tidies (.of_eq rfl rfl) (.of_settings rfl rfl rfl rfl rfl rfl rfl)
  case restart tag =>
    exact .next (s.upholds_request _ fun u handler => u.upholds_answer handler _ true .refl)
  case configureLine tag line cfg => exact .serve _ (configureLineBody_acts line cfg)
  case startLine tag line pinHigh => exact .serve _ (startLineBody_acts line pinHigh)
  case stopLine tag line => exact .serve _ (stopLineBody_acts line)
  case getLineCounts tag line clear => exact .serve _ (getLineCountsBody_acts line clear)
  case setPoolMark tag mark => exact .serve _ (setPoolMarkBody_acts mark)
  case writeEntry tag entry body => exact .serve _ (writeEntryBody_acts entry body)
  case readEntry tag entry => exact .serve _ (readEntryBody_acts entry)
  case clearEntry tag entry => exact .serve _ (clearEntryBody_acts entry)
  case forceTrigger tag entry => exact .serve _ (forceTriggerBody_acts entry)
  case listIncidents => exact .serve _ .refl
  case closeIncident tag id => exact .serve _ (closeIncidentBody_acts id)
  case cancelIncident tag id => exact .serve _ (cancelIncidentBody_acts id)
  case listFrames tag line list present after max => exact .serve _ (listFramesBody_acts line list present after max)
  case readFrame tag line seq => exact .serve _ (readFrameBody_acts line seq)
  case takeFrames tag line count => exact .serve _ (takeFramesBody_acts line count)
  case releaseFrames tag line seq => exact .serve _ (releaseFramesBody_acts line seq)
  case getStoreStatus => exact .serve _ .refl
  case setStorePolicy tag policy => exact .serve _ (setStorePolicyBody_acts policy)
  case setProtection tag sector level => exact .serve _ (setProtectionBody_acts sector level)
  case eraseSector tag sector => exact .serve _ (eraseSectorBody_acts sector)
  case listRecords tag first filter max => exact .serve _ (listRecordsBody_acts first filter max)
  case readRecord tag serial first => exact .next (s.upholds_serveRead _ _)
  case verifyRecord tag serial => exact .next (s.upholds_serveRead _ _)
  case discardRecord tag serial => exact .serve _ (discardRecordBody_acts serial)
  case startBit i lowAtMid =>
    simp only [exec, execStartBit]
    split
    · exact .acts (s.spares_modLine i _).acts
    · exact .refl s
  case pinSampledHigh i =>
    simp only [exec, execPinSampledHigh]
    split
    · exact .acts (s.spares_modLine i _).acts
    · exact .refl s

/-- And so does every step, the passing of time included. -/
theorem step_upholds (s : State) : Upholding s (step s) := by
  unfold step
  split
  · exact .acts (.of_eq rfl rfl rfl rfl)
  next c rest _ =>
    intro t h
    have queued : s.Acts { s with pending := rest } := .of_eq rfl rfl rfl rfl
    exact queued.upholds.trans (exec_upholds c _ t h)

/-! ### The statements -/

/-- Settles O5: what every step upholds, of link and work list. -/
theorem everyStepKeepsTheQueuesInOrder : Obligations.EveryStepKeepsTheQueuesInOrder := by
  intro s t inOrder run
  obtain ⟨order, work⟩ := s.inOrder_iff.mp inOrder
  have upheld := step_upholds s t run
  exact t.inOrder_iff.mpr ⟨upheld.order order, upheld.work work⟩

/-- Settles O9: what every step upholds, of the OPEN sectors of a guarded array. -/
theorem everyStepKeepsOneSectorOpen : Obligations.EveryStepKeepsOneSectorOpen :=
  fun s t guarded one run => ((step_upholds s t run).array guarded).2 one

/-- Settles O10: what every step upholds, of the guard. -/
theorem everyStepKeepsTheArrayGuarded : Obligations.EveryStepKeepsTheArrayGuarded :=
  fun s t guarded run => ((step_upholds s t run).array guarded).1

end Sys2Proof.Machine
end

section
/-! PROOFS. Programming only clears bits (R97, R98). -/

namespace Sys2Proof.Machine

/-! ### Cells driven to values -/

theorem Memory.readRange_getElem (m : Memory) (a n i : Nat) (h : i < (m.readRange a n).length) :
    (m.readRange a n)[i] = m.read (a + i) := by
  simp only [Memory.readRange, List.getElem_map, List.getElem_range]

theorem drivenBytes_length (former rest cells : List Byte) :
    (drivenBytes former rest cells).length = former.length := by
  rw [drivenBytes, List.length_map, List.length_range]

/-- A cell keeps its zeros. -/
theorem drivenBytes_falls (former rest cells : List Byte) (i : Nat) (h : i < (drivenBytes former rest cells).length)
    (here : i < former.length) :
    (drivenBytes former rest cells)[i] &&& former[i] = (drivenBytes former rest cells)[i] := by
  simp only [drivenBytes, List.getElem_map, List.getElem_range, List.getD_eq_getElem _ _ here]
  generalize former[i] = v
  generalize (cells[i]?).getD (rest.getD i 0xFF#8) = w
  rw [BitVec.and_comm v w, BitVec.and_assoc, BitVec.and_self]

/-- The bytes of a unit, its cells driven. -/
def Memory.driven (m : Memory) (offset n : Nat) (rest cells : List Byte) : Memory :=
  m.writeBytes offset (drivenBytes (m.readRange offset n) rest cells)

theorem Memory.driven_outside (m : Memory) (offset n : Nat) (rest cells : List Byte) (a : Nat)
    (outside : a < offset ∨ offset + n ≤ a) : (m.driven offset n rest cells).read a = m.read a := by
  obtain before | after := outside
  · exact m.read_writeBytes_before _ _ _ before
  · refine m.read_writeBytes_after _ _ _ ?_
    rw [drivenBytes_length, Memory.readRange_length]
    exact after

theorem Memory.driven_falls (m : Memory) (offset n : Nat) (rest cells : List Byte) (a : Nat) :
    (m.driven offset n rest cells).read a &&& m.read a = (m.driven offset n rest cells).read a := by
  by_cases inside : offset ≤ a ∧ a < offset + n
  · obtain ⟨i, rfl⟩ := Nat.exists_eq_add_of_le inside.1
    have short : i < (m.readRange offset n).length := by
      rw [Memory.readRange_length]
      exact Nat.lt_of_add_lt_add_left inside.2
    have falls := drivenBytes_falls (m.readRange offset n) rest cells i (by rw [drivenBytes_length]; exact short) short
    rw [Memory.readRange_getElem] at falls
    unfold Memory.driven
    rw [m.read_writeBytes_inside _ offset i (by rw [drivenBytes_length]; exact short)]
    exact falls
  · rw [m.driven_outside offset n rest cells a (by omega), BitVec.and_self]

/-! ### The array at the end of a unit -/

/-- Programming: no bit that was 0 is 1, and bytes outside the unit in progress are as they were. -/
def State.OnlyClears (s t : State) : Prop := ∀ (x : Fin 64) (a : Nat),
  (t.store.sectors[x].mem.read a) &&& (s.store.sectors[x].mem.read a) = t.store.sectors[x].mem.read a
    ∧ ((∀ p, s.store.op = some (.program p) → p.sector ≠ x ∨ a < p.offset ∨ p.offset + p.bytes.length ≤ a) →
        t.store.sectors[x].mem.read a = s.store.sectors[x].mem.read a)

theorem State.OnlyClears.refl (s : State) : s.OnlyClears s := fun _ _ => ⟨BitVec.and_self, fun _ => rfl⟩

theorem State.leaveBytes_driven (s : State) (p : ProgramOp) (rest cells : List Byte) :
    (s.leaveBytes p (drivenBytes (s.formerBytes p) rest cells)).store.sectors[p.sector].mem
      = (s.store.sectors[p.sector].mem).driven p.offset p.bytes.length rest cells := by
  have written := s.modSector_same p.sector fun v =>
    { v with mem := v.mem.writeBytes p.offset (drivenBytes (s.formerBytes p) rest cells) }
  exact congrArg Sector.mem written

/-- The unit in progress leaves its cells driven, and what follows leaves the bytes alone. -/
theorem State.onlyClears_unitEnd {s t : State} {p : ProgramOp} (op : s.store.op = some (.program p))
    (rest cells : List Byte)
    (h : (s.leaveBytes p (drivenBytes (s.formerBytes p) rest cells)).Settles t) : s.OnlyClears t := by
  intro x a
  rw [h.mem x]
  by_cases here : x = p.sector
  · subst here
    rw [s.leaveBytes_driven p rest cells]
    refine ⟨Memory.driven_falls _ _ _ rest cells a, fun outside => Memory.driven_outside _ _ _ rest cells a ?_⟩
    exact (outside p op).resolve_left fun e => e rfl
  · rw [s.leaveBytes_other p _ x here]
    exact ⟨BitVec.and_self, fun _ => rfl⟩

theorem execProgramUnitEnd_onlyClears (cells : List Byte) (s t : State) (run : execProgramUnitEnd cells s = .next t) :
    s.OnlyClears t := by
  unfold execProgramUnitEnd at run
  split at run
  next p op =>
    split at run
    · obtain ⟨⟩ := run
      refine State.onlyClears_unitEnd op p.bytes cells (State.Settles.trans ?_ (State.settles_settleEvent s _))
      split
      · exact State.settles_unitPassed _ p
      · exact State.settles_unitFailed _ p
    · obtain ⟨⟩ := run
      exact .refl s
  · obtain ⟨⟩ := run
    exact .refl s

theorem execProgramUnitTimeout_onlyClears (cells : List Byte) (s t : State)
    (run : execProgramUnitTimeout cells s = .next t) : s.OnlyClears t := by
  unfold execProgramUnitTimeout at run
  split at run
  next p op =>
    obtain ⟨⟩ := run
    exact State.onlyClears_unitEnd (s := s.advanceTo (pointAfterUs p.since Config.programLimit)) op [] cells
      ((State.settles_unitFailed _ p).trans (State.settles_settleEvent _ _))
  · obtain ⟨⟩ := run
    exact .refl s

/-- Settles O49: a unit's cells only fall, and the rest of either row leaves the bytes of the array alone. -/
theorem programmingOnlyClearsBits : Obligations.ProgrammingOnlyClearsBits := by
  rintro c cells s t (rfl | rfl) run
  · exact execProgramUnitEnd_onlyClears cells s t run
  · exact execProgramUnitTimeout_onlyClears cells s t run

end Sys2Proof.Machine
end

section
/-! PROOFS. The ends of host and background erases (R99, R105, R115, R130, R139). -/

namespace Sys2Proof.Machine

/-! ### An erase of no commit ends -/

/-- The effects of an erase that passed its verify, but for notice and holder. -/
def State.erasedWell (s : State) (x : Fin 64) : State :=
  (({ s with store := { s.store with op := none } }).modSector x Sector.erasedWell).clearFull

/-- Those of one that failed it. -/
def State.erasedBadly (s : State) (x : Fin 64) : State :=
  { (({ s with store := { s.store with op := none } }).modSector x (Sector.erasedBadly s.freeKey)) with
    freeKey := s.freeKey + 1 }

section
variable {s : State} {e : EraseOp} (cause : e.cause ≠ .overwrite)

include cause in
theorem State.eraseOver_free : s.eraseOver e = s.dropHolder := by
  unfold State.eraseOver
  split
  next overwrite _ => exact absurd overwrite cause
  next => rfl

include cause in
theorem State.endErase_passed :
    s.endErase e true = ((s.erasedWell e.sector).notify (.eraseDone e.sector true e.cause)).dropHolder :=
  State.eraseOver_free cause

include cause in
theorem State.endErase_failed : s.endErase e false
    = (((s.erasedBadly e.sector).eraseFault e).notify (.eraseDone e.sector false e.cause)).dropHolder :=
  State.eraseOver_free cause

theorem State.erasedWell_same (s : State) (x : Fin 64) :
    (s.erasedWell x).store.sectors[x] = s.store.sectors[x].erasedWell := State.modSector_same _ x _

theorem State.erasedWell_other (s : State) (x y : Fin 64) (h : y ≠ x) :
    (s.erasedWell x).store.sectors[y] = s.store.sectors[y] := State.modSector_other _ x y h _

theorem State.erasedBadly_same (s : State) (x : Fin 64) :
    (s.erasedBadly x).store.sectors[x] = s.store.sectors[x].erasedBadly s.freeKey := State.modSector_same _ x _

theorem State.erasedBadly_sector (s : State) (x : Fin 64) :
    (s.erasedBadly x).store.sectors[x] = { s.store.sectors[x] with
    mem := (s.erasedBadly x).store.sectors[x].mem, state := .retired, seq := none, live := 0, dead := 0 } := by
  rw [State.erasedBadly_same]
  rfl

theorem State.erasedBadly_other (s : State) (x y : Fin 64) (h : y ≠ x) :
    (s.erasedBadly x).store.sectors[y] = s.store.sectors[y] := State.modSector_other _ x y h _

include cause in
/-- The end of the erase leaves what is outside store and link. -/
theorem State.endErase_elsewhere (passed : Bool) : (s.endErase e passed).lines = s.lines
    ∧ (s.endErase e passed).capture = s.capture ∧ (s.endErase e passed).matcher = s.matcher
    ∧ (s.endErase e passed).inc = s.inc ∧ (s.endErase e passed).time = s.time := by
  cases passed with
  | true => simp [State.endErase_passed cause, State.erasedWell]
  | false => simp [State.endErase_failed cause, State.erasedBadly, State.eraseFault]

include cause in
/-- The end of the erase leaves nothing to grant where nothing waited. -/
theorem State.endErase_rests (work : s.store.work = []) (queue : s.inc.queue = [])
    (pending : ∀ x : Fin 64, s.store.sectors[x].pending = false) (passed : Bool) :
    (s.endErase e passed).arbitrate = s.endErase e passed := by
  cases passed with
  | true =>
    rw [State.endErase_passed cause]
    refine State.arbitrate_no_work _ work queue (Store.toReclaim_none fun x => ?_)
    by_cases here : x = e.sector
    · subst here; exact (congrArg Sector.pending (s.erasedWell_same e.sector)).trans (pending e.sector)
    · exact (congrArg Sector.pending (s.erasedWell_other e.sector x here)).trans (pending x)
  | false =>
    rw [State.endErase_failed cause]
    refine State.arbitrate_no_work _ work queue (Store.toReclaim_none fun x => ?_)
    by_cases here : x = e.sector
    · subst here; exact (congrArg Sector.pending (s.erasedBadly_same e.sector)).trans (pending e.sector)
    · exact (congrArg Sector.pending (s.erasedBadly_other e.sector x here)).trans (pending x)

end

/-! ### ERASE_END and ERASE_TIMEOUT -/

section
variable {s : State} {e : EraseOp} {since : Stamp} (op : s.store.op = some (.erase e)) (active : e.since = some since)

include op active in
theorem exec_eraseEnd (blank : Bool) (soon : e.active + (s.time.elapsed - since).toNat ≤ 250000) :
    exec (.eraseEnd blank) s = .next (s.endErase e blank).arbitrate := by
  change execEraseEnd blank s = _
  unfold execEraseEnd
  rw [op]
  dsimp only
  rw [active]
  exact if_pos soon

include op active in
theorem exec_eraseTimeout : exec .eraseTimeout s
    = .next (State.endErase
        { s with time := s.time.advanceTo (since + BitVec.ofNat 48 (250000 - e.active)) } e false).arbitrate := by
  change execEraseTimeout s = _
  unfold execEraseTimeout
  rw [op]
  dsimp only
  rw [active]
  rfl

end

/-- STORE_FAULT and ERASE_DONE of an erase that failed, while a frame is being sent and both find room (R182). -/
theorem State.endErase_failed_notices {s : State} {e : EraseOp} (cause : e.cause ≠ .overwrite) (busy : s.link.tx ≠ none)
    (room : s.link.notices.length < 15) (fault : s.link.kindMask.getLsbD 11 = true)
    (done : s.link.kindMask.getLsbD 12 = true) :
    (s.endErase e false).link.notices = s.link.notices ++
      [⟨s.link.number, s.time.tod, .storeFault false e.sector 65535 e.cause 0xFFFFFFFF#32
          (s.endErase e false).store.faults⟩,
        ⟨s.link.number + 1, s.time.tod, .eraseDone e.sector false e.cause⟩] := by
  rw [State.endErase_failed cause]
  let n : Notice := .storeFault false e.sector 65535 e.cause 0xFFFFFFFF#32 { s.store.faults with eraseFail := true }
  have first : s.link.notify s.time.tod n = s.link.join s.time.tod n :=
    s.link.notify_joins _ _ busy fault (by omega)
  have second : (s.link.join s.time.tod n).notify s.time.tod (.eraseDone e.sector false e.cause)
      = (s.link.join s.time.tod n).join s.time.tod (.eraseDone e.sector false e.cause) := by
    refine Link.notify_joins _ _ _ busy done ?_
    rw [Link.join, List.length_append, List.length_singleton]
    omega
  change ((s.link.notify s.time.tod n).notify s.time.tod (.eraseDone e.sector false e.cause)).notices = _
  rw [first, second]
  exact List.append_assoc _ _ _

/-- Settles O54: the erase ends, its holder with it, and the arbiter finds nothing to grant. -/
theorem eraseEndsSettleTheSector : Obligations.EraseEndsSettleTheSector := by
  refine ⟨fun s e since blank op active soon cause work queue pending => ?_,
    fun s e since op active cause work queue pending busy room fault done => ?_⟩
  · refine ⟨_, (exec_eraseEnd op active blank soon).trans
      (congrArg _ (State.endErase_rests cause work queue pending blank)), ?_⟩
    have elsewhere := State.endErase_elsewhere (s := s) cause blank
    cases blank with
    | true =>
      rw [State.endErase_passed cause] at elsewhere
      beta_reduce
      rw [State.endErase_passed cause, if_pos rfl]
      exact ⟨⟨s.erasedWell_same e.sector, rfl, rfl⟩, rfl, rfl, s.erasedWell_other e.sector, elsewhere⟩
    | false =>
      rw [State.endErase_failed cause] at elsewhere
      beta_reduce
      rw [State.endErase_failed cause, if_neg Bool.false_ne_true]
      exact ⟨⟨s.erasedBadly_sector e.sector, rfl, rfl⟩, rfl, rfl, s.erasedBadly_other e.sector, elsewhere⟩
  · have run := exec_eraseTimeout op active
    generalize s.time.advanceTo (since + BitVec.ofNat 48 (250000 - e.active)) = time at run ⊢
    refine ⟨_, run.trans
      (congrArg _ (State.endErase_rests (s := { s with time := time }) cause work queue pending false)), ?_⟩
    obtain ⟨lines, capture, -, inc, clock⟩ := State.endErase_elsewhere (s := { s with time := time }) cause false
    have notices := State.endErase_failed_notices (s := { s with time := time }) cause busy room fault done
    have same := State.erasedBadly_sector { s with time := time } e.sector
    have complete := congrArg Sector.eraseComplete same
    rw [State.endErase_failed cause] at notices clock lines capture inc ⊢
    exact ⟨congrArg Sector.state same, complete, rfl, rfl, rfl, clock, notices, rfl, lines, capture, inc⟩

end Sys2Proof.Machine
end

section
/-! PROOFS. Requests to the store on a held array, and the grant of their items on an idle one (R104, R106, R107, R109
to R113, R126, R130, R137). -/

namespace Sys2Proof.Machine

/-! ### The store, READY and held -/

/-- The arbiter leaves a held array alone (R107). -/
theorem State.arbitrate_unidle {s : State} (held : s.store.holder ≠ none) : s.arbitrate = s := by
  obtain ⟨h, holder⟩ := Option.ne_none_iff_exists'.mp held
  exact s.arbitrate_busy (State.arrayIdle_held holder)

theorem State.arrayIdle_ready {s : State} (idle : s.arrayIdle = true) : s.store.state = .ready := by
  unfold State.arrayIdle at idle
  rw [Bool.and_eq_true, Bool.and_eq_true, beq_iff_eq] at idle
  exact idle.1.1

theorem Store.not_scanning {st : Store} (ready : st.state = .ready) : st.state ≠ .scanning := by
  rw [ready]
  exact StoreState.noConfusion

/-! ### SET_STORE_POLICY (R113, R130) -/

theorem storePolicyOf_le {policy : Byte} (h : policy.toNat ≤ 1) :
    storePolicyOf policy = some (if policy = 0 then .stop else .overwriteOldest) := by
  unfold storePolicyOf
  by_cases zero : policy = 0
  · subst zero
    rfl
  · have one : policy = 1 := by bv_omega
    subst one
    rfl

/-- The effects of SET_STORE_POLICY. -/
def State.withPolicy (s : State) (p : StorePolicy) : State :=
    ({ s with store := { s.store with policy := p } }).clearFull

theorem setStorePolicyBody_ok {s : State} {policy : Byte} {p : StorePolicy} (named : storePolicyOf policy = some p)
    (ready : s.store.state = .ready) (held : s.store.holder ≠ none) :
    setStorePolicyBody policy s = (s.withPolicy p, .ok []) := by
  unfold setStorePolicyBody
  rw [named]
  refine (if_neg (Store.not_scanning ready)).trans ?_
  exact Prod.ext (State.arbitrate_unidle (s := s.withPolicy p) held) rfl

/-! ### SET_PROTECTION (R112) -/

theorem Sector.settle_protection (v : Sector) : v.settle.protection = v.protection := v.eases_settle.protection

theorem Sector.close_state (v : Sector) : v.close.state = if v.state = .opened then .full else v.state := by
  unfold Sector.close
  split
  · rw [Sector.settle_state]
  · rfl

theorem Sector.protect_protection (level : Protection) (v : Sector) : (v.protect level).protection = level := by
  unfold Sector.protect
  split
  next same => exact same.symm
  · split
    · exact Sector.eases_close _ |>.protection
    · exact Sector.settle_protection _

theorem Sector.protect_state (level : Protection) (v : Sector) : (v.protect level).state
    = if v.state = .opened ∧ v.protection = .unlocked ∧ level ≠ .unlocked then .full else v.state := by
  unfold Sector.protect
  split
  next same => exact (if_neg fun ⟨_, unlocked, locks⟩ => locks (same.trans unlocked)).symm
  next other =>
    split
    next unlocked =>
      have locks : level ≠ .unlocked := fun h => other (h.trans unlocked.symm)
      rw [Sector.close_state]
      simp only [unlocked, locks, ne_eq, not_false_eq_true, and_self, and_true]
    next locked =>
      rw [Sector.settle_state]
      exact (if_neg fun h => locked h.2.1).symm

/-- An unlock that makes a reclaim candidate sets erase pending (R106). -/
theorem Sector.protect_pends {v : Sector} (locked : v.protection ≠ .unlocked)
    (candidate : v.state = .dirty ∨ (v.state = .full ∧ v.live = 0)) : (v.protect .unlocked).pending = true := by
  have reclaimable : Sector.reclaimable { v with protection := .unlocked } = true := by
    unfold Sector.reclaimable
    simpa using candidate
  unfold Sector.protect
  rw [if_neg (Ne.symm locked), if_neg locked, Sector.settle, if_pos reclaimable]

/-- The level takes effect (R112, R130). -/
def State.protected (s : State) (x : Fin 64) (level : Protection) : State :=
  if s.store.sectors[x].protection = .locked ∧ level = .unlocked then (s.modSector x (Sector.protect level)).clearFull
  else s.modSector x (Sector.protect level)

theorem State.protected_only (s : State) (x : Fin 64) (level : Protection) : s.protected x level = { s with
    store := { s.store with sectors := (s.modSector x (Sector.protect level)).store.sectors }
    records := { s.records with
      full := if s.store.sectors[x].protection = .locked ∧ level = .unlocked then none else s.records.full } } := by
  unfold State.protected
  split <;> rfl

section
variable {s : State} {x : Fin 64} {level : Protection} (ready : s.store.state = .ready)

include ready in
theorem State.protect_prot (down : s.store.sectors[x].protection = .lockedDown ∧ level ≠ .lockedDown) :
    s.protect x level = (s, .bare .prot) :=
  (if_neg (Store.not_scanning ready)).trans (if_pos down)

include ready in
theorem State.protect_busy (up : ¬ (s.store.sectors[x].protection = .lockedDown ∧ level ≠ .lockedDown))
    (busy : s.store.inWork x = true ∨ s.commitSector x = true) : s.protect x level = (s, .bare .busy) :=
  ((if_neg (Store.not_scanning ready)).trans (if_neg up)).trans (if_pos busy)

include ready in
theorem State.protect_ok (held : s.store.holder ≠ none)
    (up : ¬ (s.store.sectors[x].protection = .lockedDown ∧ level ≠ .lockedDown))
    (free : ¬ (s.store.inWork x = true ∨ s.commitSector x = true)) :
    s.protect x level = (s.protected x level, .ok ((s.protected x level).protectionReply x)) := by
  have still : (s.protected x level).arbitrate = s.protected x level := by
    refine State.arbitrate_unidle ?_
    rw [State.protected_only]
    exact held
  have run : s.protect x level
      = ((s.protected x level).arbitrate, .ok ((s.protected x level).arbitrate.protectionReply x)) :=
    ((if_neg (Store.not_scanning ready)).trans (if_neg up)).trans (if_neg free)
  rw [run, still]

end

theorem setProtectionBody_named {sector level : Byte} {x : Fin 64} {l : Protection} (named : sectorOf sector = some x)
    (levelled : protectionOf level = some l) (s : State) : setProtectionBody sector level s = s.protect x l := by
  unfold setProtectionBody
  rw [named, levelled]

theorem Store.inWork_iff (st : Store) (x : Fin 64) : st.inWork x = true ↔ st.sectors[x].state = .erasing
    ∨ st.sectors[x].pending = true ∨ (st.work.any fun i => i.sector == x) = true ∨ st.itemHolds x = true := by
  unfold Store.inWork
  simp only [Bool.or_eq_true, beq_iff_eq, or_assoc]

theorem State.protected_same (s : State) (x : Fin 64) (level : Protection) :
    (s.protected x level).store.sectors[x] = s.store.sectors[x].protect level := by
  rw [State.protected_only]
  exact s.modSector_same x _

theorem State.protected_other (s : State) (x y : Fin 64) (level : Protection) (h : y ≠ x) :
    (s.protected x level).store.sectors[y] = s.store.sectors[y] := by
  rw [State.protected_only]
  exact s.modSector_other x y h _

theorem State.protected_relinked (s : State) (x : Fin 64) (level : Protection) (l : Link) (k : Nat) :
    (s.relinked l k).protected x level = (s.protected x level).relinked l k := by
  rw [State.protected_only, State.protected_only]
  rfl

/-- Settles O55: policy at once; protection by its checks, then by its effect on the sector. -/
theorem storeRequestsOfPolicyAndProtection : Obligations.StoreRequestsOfPolicyAndProtection := by
  refine ⟨fun tag policy s le ready held executing => ?_,
      fun tag sector level x l s named levelled ready held executing => ?_⟩
  · obtain ⟨t, run, only, answered⟩ := s.serve_changes (s.withPolicy (if policy = 0 then .stop else .overwriteOldest))
      (.setStorePolicy tag policy) (setStorePolicyBody policy) [] rfl executing
      fun l k => setStorePolicyBody_ok (s := s.relinked l k) (storePolicyOf_le le) ready held
    exact ⟨t, run, only, answered⟩
  · dsimp only
    by_cases down : s.store.sectors[x].protection = .lockedDown ∧ l ≠ .lockedDown
    · simp only [if_pos down]
      refine s.serve_refuses _ (setProtectionBody sector level) .prot rfl executing fun a k => ?_
      rw [setProtectionBody_named named levelled]
      exact State.protect_prot (s := s.relinked a k) ready down
    simp only [if_neg down]
    by_cases busy : s.store.inWork x = true ∨ s.commitSector x = true
    · have named_busy := busy
      rw [Store.inWork_iff, or_assoc, or_assoc, or_assoc] at named_busy
      simp only [if_pos named_busy]
      refine s.serve_refuses _ (setProtectionBody sector level) .busy rfl executing fun a k => ?_
      rw [setProtectionBody_named named levelled]
      exact State.protect_busy (s := s.relinked a k) ready down busy
    have named_free := busy
    rw [Store.inWork_iff, or_assoc, or_assoc, or_assoc] at named_free
    simp only [if_neg named_free]
    obtain ⟨t, run, only, answered⟩ := s.serve_changes (s.protected x l) (.setProtection tag sector level)
      (setProtectionBody sector level) ((s.protected x l).protectionReply x) rfl executing fun a k => by
        rw [setProtectionBody_named named levelled, State.protect_ok (s := s.relinked a k) ready held down busy,
          State.protected_relinked]
        rfl
    have sectors : t.store.sectors = (s.protected x l).store.sectors := by rw [only]; rfl
    have same : t.store.sectors[x] = s.store.sectors[x].protect l := by rw [sectors, State.protected_same]
    refine ⟨t, run, ?_, fun y other => ?_, ?_, ?_, ?_, ?_, ?_⟩
    · rw [sectors]
      refine only.trans ?_
      rw [State.protected_only]
      rfl
    · rw [sectors, State.protected_other s x y l other]
    · rw [same, Sector.protect_protection]
    · rw [same, Sector.protect_state]
    · rw [same, Sector.protect_mem]
    · rintro locked rfl candidate
      rw [same]
      exact Sector.protect_pends locked candidate
    · rw [State.protectionReply, State.protected_same, Sector.protect_protection, ← same] at answered
      exact answered

end Sys2Proof.Machine
end

section
/-! PROOFS. ERASE_SECTOR and DISCARD_RECORD: the checks, the item at the tail, and its grant on an idle array (R104,
R107, R109, R110, R126, R130, R137). -/

namespace Sys2Proof.Machine

/-! ### ERASE_SECTOR (R110) -/

theorem Sector.toErase_state (gone : Nat) (v : Sector) :
    (v.toErase gone).state = if v.state = .opened then .full else v.state := v.close_state

theorem Sector.toErase_mem (gone : Nat) (v : Sector) : (v.toErase gone).mem = v.mem := v.close_mem

/-- The erase of the item begins: of the item's own effects the dead bytes alone remain. -/
theorem Sector.startErase_toErase (gone : Nat) (v : Sector) : (v.toErase gone).startErase = { v with
    state := .erasing, pending := false, fillOffset := none, live := 0, eraseComplete := false
    dead := (v.toErase gone).startErase.dead } := by
  unfold Sector.toErase Sector.startErase Sector.close
  split
  · unfold Sector.settle
    split <;> rfl
  · rfl

/-- The dead bytes that an erase item adds: the records of its sector leave the index. -/
def State.goneIn (s : State) (x : Fin 64) : Nat := lengthsOf (s.records.index.filter fun e => e.sector == x)

theorem State.addErase_same (s : State) (x : Fin 64) :
    (s.addErase x).store.sectors[x] = s.store.sectors[x].toErase (s.goneIn x) :=
  s.modSector_same x (Sector.toErase (s.goneIn x))

theorem State.addErase_other (s : State) (x y : Fin 64) (h : y ≠ x) :
    (s.addErase x).store.sectors[y] = s.store.sectors[y] := s.modSector_other x y h (Sector.toErase (s.goneIn x))

section
variable {s : State} {x : Fin 64} (ready : s.store.state = .ready)

include ready in
theorem State.eraseSector_prot (locked : s.store.sectors[x].protection ≠ .unlocked) :
    s.eraseSector x = (s, .bare .prot) := (if_neg (Store.not_scanning ready)).trans (if_pos locked)

variable (unlocked : ¬ s.store.sectors[x].protection ≠ .unlocked)

include ready unlocked in
theorem State.eraseSector_pends (erases : s.store.sectors[x].state = .erasing ∨ s.store.sectors[x].pending = true) :
    s.eraseSector x = (s, .bare .accepted) :=
  ((if_neg (Store.not_scanning ready)).trans (if_neg unlocked)).trans (if_pos erases)

variable (still : ¬ (s.store.sectors[x].state = .erasing ∨ s.store.sectors[x].pending = true))

include ready unlocked still in
theorem State.eraseSector_busy (busy : s.commitSector x = true ∨ 8 ≤ s.store.work.length) :
    s.eraseSector x = (s, .bare .busy) := by
  refine (((if_neg (Store.not_scanning ready)).trans (if_neg unlocked)).trans (if_neg still)).trans ?_
  split
  · rfl
  next free => exact if_pos (busy.resolve_left free)

include ready unlocked still in
theorem State.eraseSector_adds (free : ¬ (s.commitSector x = true ∨ 8 ≤ s.store.work.length)) :
    s.eraseSector x = ((s.addErase x).arbitrate, .bare .accepted) := by
  obtain ⟨apart, room⟩ := not_or.mp free
  exact ((((if_neg (Store.not_scanning ready)).trans (if_neg unlocked)).trans (if_neg still)).trans
      (if_neg apart)).trans
    (if_neg room)

end

theorem eraseSectorBody_named {sector : Byte} {x : Fin 64} (named : sectorOf sector = some x) (s : State) :
    eraseSectorBody sector s = s.eraseSector x := by
  unfold eraseSectorBody
  rw [named]

/-- The item is granted as it joins an idle array's empty list: its erase begins (R107). -/
theorem State.addErase_granted {s : State} (x : Fin 64) (idle : s.arrayIdle = true) (work : s.store.work = []) :
    (s.addErase x).arbitrate = State.startErase
      { s.addErase x with store := { (s.addErase x).store with holder := some .hostItem, work := [] } } x .host :=
  State.arbitrate_item (s := s.addErase x) idle (i := .erase x) (congrArg (· ++ [WorkItem.erase x]) work)

theorem State.addErase_granted_only {s : State} (x : Fin 64) (idle : s.arrayIdle = true) (work : s.store.work = []) :
    (s.addErase x).arbitrate = { s with
      store := { s.store with
        sectors := (s.addErase x).arbitrate.store.sectors, holder := some .hostItem
        op := some (.erase ⟨x, .host, 0, some s.time.elapsed⟩) }
      records := { s.records with full := none, index := s.records.index.filter fun r => r.sector != x } } := by
  rw [State.addErase_granted x idle work]
  have none_left : s.store = { s.store with work := [] } := by rw [← work]
  rw [none_left]
  rfl

theorem State.addErase_granted_other {s : State} {x : Fin 64} (idle : s.arrayIdle = true) (work : s.store.work = [])
    (y : Fin 64) (h : y ≠ x) : (s.addErase x).arbitrate.store.sectors[y] = s.store.sectors[y] := by
  rw [State.addErase_granted x idle work]
  exact (State.modSector_other _ x y h Sector.startErase).trans (s.addErase_other x y h)

theorem State.addErase_granted_same {s : State} (x : Fin 64) (idle : s.arrayIdle = true) (work : s.store.work = []) :
    (s.addErase x).arbitrate.store.sectors[x] = (s.store.sectors[x].toErase (s.goneIn x)).startErase := by
  rw [State.addErase_granted x idle work]
  exact (State.modSector_same _ x Sector.startErase).trans (congrArg Sector.startErase (s.addErase_same x))

/-- Settles O56: the checks in their order; the item at the tail; or its erase at once. -/
theorem eraseSectorChecksThenAdds : Obligations.EraseSectorChecksThenAdds := by
  refine ⟨fun tag sector x s named ready held executing => ?_,
    fun tag sector x s named idle work executing unlocked still unpending => ?_⟩
  · dsimp only
    by_cases locked : s.store.sectors[x].protection ≠ .unlocked
    · simp only [if_pos locked]
      refine s.serve_refuses _ (eraseSectorBody sector) .prot rfl executing fun a k => ?_
      rw [eraseSectorBody_named named]
      exact State.eraseSector_prot (s := s.relinked a k) ready locked
    simp only [if_neg locked]
    by_cases erases : s.store.sectors[x].state = .erasing ∨ s.store.sectors[x].pending = true
    · simp only [if_pos erases]
      refine s.serve_refuses _ (eraseSectorBody sector) .accepted rfl executing fun a k => ?_
      rw [eraseSectorBody_named named]
      exact State.eraseSector_pends (s := s.relinked a k) ready locked erases
    simp only [if_neg erases]
    by_cases busy : s.commitSector x = true ∨ 8 ≤ s.store.work.length
    · simp only [if_pos busy]
      refine s.serve_refuses _ (eraseSectorBody sector) .busy rfl executing fun a k => ?_
      rw [eraseSectorBody_named named]
      exact State.eraseSector_busy (s := s.relinked a k) ready locked erases busy
    simp only [if_neg busy]
    obtain ⟨t, run, only, answered⟩ := s.serve_answers (s.addErase x) (.eraseSector tag sector) (eraseSectorBody sector)
      (.bare .accepted) rfl executing fun a k => by
        rw [eraseSectorBody_named named, State.eraseSector_adds (s := s.relinked a k) ready locked erases busy,
          State.arbitrate_unidle (s := (s.relinked a k).addErase x) held]
        rfl
    have sectors : t.store.sectors = (s.addErase x).store.sectors := by rw [only]; rfl
    have same : t.store.sectors[x] = s.store.sectors[x].toErase (s.goneIn x) := by rw [sectors, State.addErase_same]
    refine ⟨t, run, ?_, fun y other => ?_, ?_, ?_, ?_, ?_, answered⟩
    · rw [sectors]; exact only
    · rw [sectors, State.addErase_other s x y other]
    · rw [same]; rfl
    · rw [same]; rfl
    · rw [same, Sector.toErase_mem]
    · rw [same, Sector.toErase_state]
  · have calm : ¬ (s.store.sectors[x].state = .erasing ∨ s.store.sectors[x].pending = true) :=
      not_or.mpr ⟨still, by rw [unpending]; exact Bool.false_ne_true⟩
    have unheld : s.store.holder ≠ some .commit := by rw [(State.idle_unheld idle).1]; exact fun h => (nomatch h)
    have free : ¬ (s.commitSector x = true ∨ 8 ≤ s.store.work.length) := by
      rw [State.commitSector_unheld x unheld, work]
      exact not_or.mpr ⟨Bool.false_ne_true, Nat.not_succ_le_zero 7⟩
    obtain ⟨t, run, only, answered⟩ := s.serve_answers (s.addErase x).arbitrate (.eraseSector tag sector)
      (eraseSectorBody sector) (.bare .accepted) rfl executing fun a k => by
        rw [eraseSectorBody_named named, State.eraseSector_adds (s := s.relinked a k) (State.arrayIdle_ready idle)
          (not_not.mpr unlocked) calm free, State.addErase_granted (s := s.relinked a k) x idle work,
          State.addErase_granted x idle work]
        rfl
    have sectors : t.store.sectors = (s.addErase x).arbitrate.store.sectors := by rw [only]; rfl
    have same : t.store.sectors[x] = (s.store.sectors[x].toErase (s.goneIn x)).startErase := by
      rw [sectors, State.addErase_granted_same x idle work]
    refine ⟨t, run, ?_, fun y other => ?_, ?_, answered⟩
    · rw [sectors]
      refine only.trans ?_
      rw [State.addErase_granted_only x idle work]
      rfl
    · rw [sectors, State.addErase_granted_other idle work y other]
    · rw [same]
      exact Sector.startErase_toErase _ _

/-! ### DISCARD_RECORD (R137) -/

/-- The sector of a record that is discarded. -/
def Sector.loses (size : Nat) (v : Sector) : Sector := { v with live := v.live - 1, dead := v.dead + size }.settle

theorem Sector.settle_only (v : Sector) : v.settle = { v with pending := v.settle.pending } := by
  unfold Sector.settle
  split <;> rfl

theorem Sector.loses_only (size : Nat) (v : Sector) : v.loses size
    = { v with live := v.live - 1, dead := v.dead + size, pending := (v.loses size).pending } := Sector.settle_only _

/-- A FULL sector that loses its last live record pends (R106). -/
theorem Sector.loses_pends (size : Nat) {v : Sector} (unlocked : v.protection = .unlocked) (full : v.state = .full)
    (last : v.live = 1) : (v.loses size).pending = true := by
  have reclaimable : Sector.reclaimable { v with live := v.live - 1, dead := v.dead + size } = true := by
    unfold Sector.reclaimable
    simp [unlocked, full, last]
  unfold Sector.loses
  rw [Sector.settle, if_pos reclaimable]

theorem State.discard_same (s : State) (e : IndexEntry) :
    (s.discard e).store.sectors[e.sector] = s.store.sectors[e.sector].loses e.length :=
  s.modSector_same e.sector (Sector.loses e.length)

theorem State.discard_other (s : State) (e : IndexEntry) (y : Fin 64) (h : y ≠ e.sector) :
    (s.discard e).store.sectors[y] = s.store.sectors[y] := s.modSector_other e.sector y h (Sector.loses e.length)

section
variable {s : State} {serial : Word} (ready : s.store.state = .ready)

include ready in
theorem discardRecordBody_absent (absent : s.records.entryOf serial = none) :
    discardRecordBody serial s = (s, .bare .notFound) := by
  unfold discardRecordBody
  rw [if_neg (Store.not_scanning ready), absent]

variable {e : IndexEntry} (found : s.records.entryOf serial = some e)

include ready found in
theorem discardRecordBody_prot (locked : s.store.sectors[e.sector].protection ≠ .unlocked) :
    discardRecordBody serial s = (s, .bare .prot) := by
  unfold discardRecordBody
  rw [if_neg (Store.not_scanning ready), found]
  exact if_pos locked

variable (unlocked : ¬ s.store.sectors[e.sector].protection ≠ .unlocked)

include ready found unlocked in
theorem discardRecordBody_busy (full : 8 ≤ s.store.work.length) : discardRecordBody serial s = (s, .bare .busy) := by
  unfold discardRecordBody
  rw [if_neg (Store.not_scanning ready), found]
  exact (if_neg unlocked).trans (if_pos full)

include ready found unlocked in
theorem discardRecordBody_adds (room : ¬ 8 ≤ s.store.work.length) :
    discardRecordBody serial s = ((s.discard e).arbitrate, .bare .accepted) := by
  unfold discardRecordBody
  rw [if_neg (Store.not_scanning ready), found]
  exact (if_neg unlocked).trans (if_neg room)

end

/-- The item is granted as it joins an idle array's empty list: the unit of its mark begins (R107, R109). -/
theorem State.discard_granted {s : State} (e : IndexEntry) (idle : s.arrayIdle = true) (work : s.store.work = []) :
    (s.discard e).arbitrate = { s with
      store := { s.store with
        sectors := (s.discard e).store.sectors, holder := some .hostItem
        op := some (.program ⟨e.sector, e.offset + 4, [0x0F], .mark, some e.serial, s.time.elapsed⟩) }
      records := { s.records with
        full := none, index := s.records.index.filter fun d => d.serial != e.serial } } := by
  have grant := State.arbitrate_item (s := s.discard e) idle (i := .mark e.serial e.sector e.offset)
    (congrArg (· ++ [WorkItem.mark e.serial e.sector e.offset]) work)
  refine grant.trans ?_
  have none_left : s.store = { s.store with work := [] } := by rw [← work]
  rw [none_left]
  rfl

/-- Settles O57: the checks in their order; the mark at the tail; or its unit at once. -/
theorem discardRecordChecksThenAdds : Obligations.DiscardRecordChecksThenAdds := by
  refine ⟨fun tag serial s ready held executing => ?_,
    fun tag serial e s idle work executing found unlocked => ?_⟩
  · split
    next absent =>
      refine s.serve_refuses _ (discardRecordBody serial) .notFound rfl executing fun a k => ?_
      exact discardRecordBody_absent (s := s.relinked a k) ready absent
    next e found =>
      dsimp only
      by_cases locked : s.store.sectors[e.sector].protection ≠ .unlocked
      · simp only [if_pos locked]
        refine s.serve_refuses _ (discardRecordBody serial) .prot rfl executing fun a k => ?_
        exact discardRecordBody_prot (s := s.relinked a k) ready found locked
      simp only [if_neg locked]
      by_cases full : 8 ≤ s.store.work.length
      · simp only [if_pos full]
        refine s.serve_refuses _ (discardRecordBody serial) .busy rfl executing fun a k => ?_
        exact discardRecordBody_busy (s := s.relinked a k) ready found locked full
      simp only [if_neg full]
      obtain ⟨t, run, only, answered⟩ := s.serve_answers (s.discard e) (.discardRecord tag serial)
        (discardRecordBody serial) (.bare .accepted) rfl executing fun a k => by
          rw [discardRecordBody_adds (s := s.relinked a k) ready found locked full,
            State.arbitrate_unidle (s := (s.relinked a k).discard e) held]
          rfl
      have sectors : t.store.sectors = (s.discard e).store.sectors := by rw [only]; rfl
      have same : t.store.sectors[e.sector] = s.store.sectors[e.sector].loses e.length := by
        rw [sectors, State.discard_same]
      refine ⟨t, run, ?_, fun y other => ?_, ?_, ?_, ?_, fun full last => ?_, answered⟩
      · rw [sectors]; exact only
      · rw [sectors, State.discard_other s e y other]
      · rw [same, Sector.loses_only]
      · rw [same, Sector.loses_only]
      · rw [same, Sector.loses_only]
      · rw [same]; exact Sector.loses_pends _ (not_not.mp locked) full last
  · have room : ¬ 8 ≤ s.store.work.length := by rw [work]; exact Nat.not_succ_le_zero 7
    obtain ⟨t, run, only, answered⟩ := s.serve_answers (s.discard e).arbitrate (.discardRecord tag serial)
      (discardRecordBody serial) (.bare .accepted) rfl executing fun a k => by
        rw [discardRecordBody_adds (s := s.relinked a k) (State.arrayIdle_ready idle) found (not_not.mpr unlocked) room,
          State.discard_granted (s := s.relinked a k) e idle work, State.discard_granted e idle work]
        rfl
    have sectors : t.store.sectors = (s.discard e).store.sectors := by
      rw [only, State.discard_granted e idle work]
      rfl
    have same : t.store.sectors[e.sector] = s.store.sectors[e.sector].loses e.length := by
      rw [sectors, State.discard_same]
    refine ⟨t, run, ?_, fun y other => ?_, ?_, ?_, ?_, ?_, answered⟩
    · rw [sectors]
      refine only.trans ?_
      rw [State.discard_granted e idle work]
      rfl
    · rw [sectors, State.discard_other s e y other]
    · rw [same, Sector.loses_only]
    · rw [same, Sector.loses_only]
    · rw [same, Sector.loses_only]
    · rw [same, Sector.loses_only]

end Sys2Proof.Machine
end

section
/-! PROOFS. Record reads: how they begin, what they report, how they end (R99, R102, R164 to R169, R190). -/

namespace Sys2Proof.Machine

/-! ### The entry walk (R165) -/

theorem leNat_take_two (bytes : List Byte) (k : Nat) : leNat ((bytes.drop k).take 2) = numberAt bytes k := by
  have first : byteAt bytes k = (bytes.drop k).getD 0 0 := by simp [byteAt, List.getD_eq_getElem?_getD]
  have second : byteAt bytes (k + 1) = (bytes.drop k).getD 1 0 := by simp [byteAt, List.getD_eq_getElem?_getD]
  rw [numberAt, first, second]
  match bytes.drop k with
  | [] => rfl
  | [a] => rfl
  | a :: b :: rest => rfl

/-- Frame entry `j` of a record as the walk finds it: offset and stored length. -/
def entryFound (bytes : List Byte) (j : Nat) : Nat × Nat := (entryOffset bytes j, entryLength bytes j)

/-- So many entries from one on. -/
def entriesFrom (bytes : List Byte) (k n : Nat) : List (Nat × Nat) := (List.range' k n).map (entryFound bytes)

theorem entriesFrom_succ (bytes : List Byte) (k n : Nat) :
    entriesFrom bytes k (n + 1) = entryFound bytes k :: entriesFrom bytes (k + 1) n := by
  rw [entriesFrom, List.range'_succ, List.map_cons, entriesFrom]

theorem entriesFrom_length (bytes : List Byte) (k n : Nat) : (entriesFrom bytes k n).length = n := by
  rw [entriesFrom, List.length_map, List.length_range']

theorem entriesFrom_drop (bytes : List Byte) (k n i : Nat) :
    (entriesFrom bytes k n).drop i = entriesFrom bytes (k + i) (n - i) := by
  rw [entriesFrom, ← List.map_drop, List.drop_range', Nat.mul_one, entriesFrom]

theorem entryOffset_succ (bytes : List Byte) (j : Nat) :
    entryOffset bytes (j + 1) = entryOffset bytes j + 24 + roundUp4 (entryLength bytes j) := rfl

/-- The walk from an entry on: it passes the sound ones and breaks at the first that is not. -/
theorem IndexEntry.entryWalk_eq (e : IndexEntry) (bytes : List Byte) (n k : Nat) : ∃ m ≤ n,
    entryWalk bytes (e.length - 16) n (entryOffset bytes k) = entriesFrom bytes k m
      ∧ (∀ j < m, e.soundAt bytes (k + j)) ∧ (m < n → ¬ e.soundAt bytes (k + m)) := by
  induction n generalizing k with
  | zero =>
    exact ⟨0, Nat.le_refl 0, rfl, fun _ h => absurd h (Nat.not_lt_zero _), fun h => absurd h (Nat.not_lt_zero _)⟩
  | succ n ih =>
    unfold entryWalk
    rw [leNat_take_two]
    by_cases sound : e.soundAt bytes k
    · obtain ⟨least, most, inside⟩ := sound
      obtain ⟨m, le, walk, sounds, breaks⟩ := ih (k + 1)
      refine ⟨m + 1, Nat.succ_le_succ le, ?_, fun j before => ?_, fun more => ?_⟩
      · refine (if_pos ⟨⟨least, most⟩, inside⟩).trans ?_
        rw [entriesFrom_succ, ← walk]
        rfl
      · cases j with
        | zero => exact ⟨least, most, inside⟩
        | succ j =>
          have there := sounds j (Nat.lt_of_succ_lt_succ before)
          rwa [show k + (j + 1) = k + 1 + j by omega]
      · have there := breaks (Nat.lt_of_succ_lt_succ more)
        rwa [show k + (m + 1) = k + 1 + m by omega]
    · refine ⟨0, Nat.zero_le _, if_neg fun ⟨⟨least, most⟩, inside⟩ => sound ⟨least, most, inside⟩,
        fun _ h => absurd h (Nat.not_lt_zero _), fun _ => sound⟩

/-- The walk of an indexed record, and how many entries it passes. -/
theorem IndexEntry.walk_eq (e : IndexEntry) (bytes : List Byte) :
    ∃ sound, e.walk bytes = entriesFrom bytes 0 sound ∧ e.walks bytes sound := by
  obtain ⟨m, le, walk, sounds, breaks⟩ := e.entryWalk_eq bytes e.frameCount 0
  refine ⟨m, walk, le, fun j before => ?_, fun more => ?_⟩
  · have there := sounds j before
    rwa [Nat.zero_add] at there
  · have there := breaks more
    rwa [Nat.zero_add] at there

/-- The end of so many entries. -/
theorem entryOffset_add (bytes : List Byte) (k n : Nat) :
    entryOffset bytes k + ((entriesFrom bytes k n).map fun x => 24 + roundUp4 x.2).sum = entryOffset bytes (k + n) := by
  induction n generalizing k with
  | zero => rfl
  | succ n ih =>
    rw [entriesFrom_succ, List.map_cons, List.sum_cons, show k + (n + 1) = k + 1 + n by omega, ← ih (k + 1),
      entryOffset_succ]
    simp only [entryFound]
    omega

/-! ### Entries that are reported (R166) -/

theorem reportedSize_succ (bytes : List Byte) (first n : Nat) :
    reportedSize bytes first (n + 1) = 24 + entryLength bytes first + reportedSize bytes (first + 1) n := by
  unfold reportedSize
  rw [List.range_succ_eq_map, List.map_cons, List.map_map, List.sum_cons, Nat.add_zero]
  congr 2
  refine List.map_congr_left fun j _ => ?_
  simp only [Function.comp_apply, Nat.succ_eq_add_one, Nat.add_assoc, Nat.add_comm 1 j]

/-- The entries that fit a budget. -/
theorem fitting_eq (bytes : List Byte) (room first m : Nat) : ∃ c ≤ m,
    fitting room (entriesFrom bytes first m) = entriesFrom bytes first c ∧ reportedSize bytes first c ≤ room
      ∧ (c < m → room < reportedSize bytes first (c + 1)) := by
  induction m generalizing room first with
  | zero => exact ⟨0, Nat.le_refl 0, rfl, Nat.zero_le _, fun h => absurd h (Nat.not_lt_zero _)⟩
  | succ m ih =>
    rw [entriesFrom_succ]
    unfold fitting
    by_cases fits : 24 + entryLength bytes first ≤ room
    · obtain ⟨c, le, run, size, stops⟩ := ih (room - (24 + entryLength bytes first)) (first + 1)
      refine ⟨c + 1, Nat.succ_le_succ le, ?_, ?_, fun more => ?_⟩
      · refine (if_pos fits).trans ?_
        rw [entriesFrom_succ, ← run]
        rfl
      · rw [reportedSize_succ]
        omega
      · have stops := stops (Nat.lt_of_succ_lt_succ more)
        rw [reportedSize_succ]
        omega
    · refine ⟨0, Nat.zero_le _, if_neg fits, Nat.zero_le _, fun _ => ?_⟩
      rw [reportedSize_succ]
      omega

theorem reportedEntry_eq (bytes : List Byte) (j : Nat) :
    reportedEntry bytes j (entryFound bytes j) = reported bytes j := by
  unfold reportedEntry reported entryFound
  simp only [List.drop_drop, roundUp4, Nat.add_zero]

theorem reportedEntries_eq (bytes : List Byte) (first n : Nat) :
    reportedEntries bytes first (entriesFrom bytes first n)
      = (List.range n).flatMap fun j => reported bytes (first + j) := by
  have steps : reportedEntries bytes first (entriesFrom bytes first n)
      = (List.range' first n).flatMap (reported bytes) := by
    induction n generalizing first with
    | zero => rfl
    | succ n ih =>
      rw [entriesFrom_succ, List.range'_succ, List.flatMap_cons]
      unfold reportedEntries
      rw [reportedEntry_eq, ih]
  rw [steps, List.range'_eq_map_range, List.flatMap_map]

/-! ### The reply of READ_RECORD (R166) -/

theorem IndexEntry.readReply_replied (e : IndexEntry) (first : Nat) (bytes : List Byte) :
    e.readReplied first bytes (e.readReply first bytes) := by
  obtain ⟨sound, walk, walks⟩ := e.walk_eq bytes
  obtain ⟨carried, le, fits, size, stops⟩ := fitting_eq bytes 1150 first (sound - first)
  have carries : fitting Config.readBudget ((e.walk bytes).drop first) = entriesFrom bytes first carried := by
    rw [walk, entriesFrom_drop, Nat.zero_add]
    exact fits
  refine ⟨sound, carried, walks, fun behind => by omega, fun before => by omega, size, fun more => stops (by omega), ?_⟩
  unfold IndexEntry.readReply
  dsimp only
  rw [carries, walk, entriesFrom_length, entriesFrom_length, reportedEntries_eq, IndexEntry.bytes_eq]
  have report : [boolByte (decide (sound < e.frameCount) && decide (sound ≤ first + carried))]
      ++ u16 (if (decide (sound < e.frameCount) && decide (sound ≤ first + carried)) = true then sound else 0xFFFF)
      = if sound < e.frameCount ∧ sound ≤ first + carried then [1] ++ u16 sound else [0, 0xFF, 0xFF] := by
    by_cases broken : sound < e.frameCount ∧ sound ≤ first + carried
    · simp [broken, boolByte]
    · rw [← Bool.decide_and, decide_eq_false broken, if_neg broken, if_neg Bool.false_ne_true]
      rfl
  rw [← report]
  simp only [List.append_assoc]

/-! ### The reply of VERIFY_RECORD (R168, R169) -/

theorem goodByte_iff {b : Bool} {p : Prop} [Decidable p] (h : b = true ↔ p) : goodByte b = if p then 1 else 2 := by
  by_cases good : p
  · rw [if_pos good, h.mpr good]
    rfl
  · rw [if_neg good, Bool.eq_false_iff.mpr fun t => good (h.mp t)]
    rfl

theorem headerGood_take (bytes : List Byte) : headerGood (bytes.take 64) = true ↔ bytes.take 4 = encLE 4 0x5AA5C33C#32
    ∧ crcAt (bytes.take 64) 30
      = crc16 (bytes.take 4 ++ ((bytes.take 64).drop 5).take 25 ++ ((bytes.take 64).drop 32).take 32) := by
  have start : (bytes.take 64).take 4 = bytes.take 4 := by rw [List.take_take]; rfl
  unfold headerGood headerCrcOf
  rw [Bool.and_eq_true, beq_iff_eq, beq_iff_eq, start]
  rfl

theorem IndexEntry.verifyReply_replied (e : IndexEntry) (bytes : List Byte) :
    e.verifyReplied bytes (e.verifyReply bytes) := by
  obtain ⟨sound, walk, walks⟩ := e.walk_eq bytes
  refine ⟨sound, Config.walkEndIndex e.frameCount, walks, ?_⟩
  have report : e.walkReport bytes = if sound < e.frameCount then [1] ++ u16 sound
      else if entryOffset bytes e.frameCount = e.length - 16 then [0, 0xFF, 0xFF]
      else [1] ++ encLE 2 (Config.walkEndIndex e.frameCount) := by
    unfold IndexEntry.walkReport
    dsimp only
    rw [walk, entriesFrom_length]
    split
    · rfl
    next whole =>
      obtain rfl : sound = e.frameCount := Nat.le_antisymm walks.1 (Nat.not_lt.mp whole)
      have ends := entryOffset_add bytes 0 e.frameCount
      rw [Nat.zero_add] at ends
      rw [← ends]
      rfl
  unfold IndexEntry.verifyReply
  dsimp only
  rw [report, IndexEntry.bytes_eq, goodByte_iff (headerGood_take bytes)]
  rw [goodByte_iff (p := (bytes.drop (e.length - 16)).take 4 = encLE 4 0xC35A3CA5#32
    ∧ ((bytes.drop (e.length - 16)).drop 4).take 4 = encLE 4 e.serial
    ∧ ((bytes.drop (e.length - 16)).drop 8).take 2 = u16 e.length
    ∧ crcAt (bytes.drop (e.length - 16)) 10
      = crc16 ((bytes.take 64).set 4 0xFF ++ (bytes.drop 64).take (e.length - 80))) ?_]
  · rfl
  · unfold markerGood
    simp only [Bool.and_eq_true, beq_iff_eq, and_assoc]
    rfl

/-! ### Reads begin (R102, R164, R168) -/

theorem State.serveRead_begins (s : State) (i : Instr) (check : State → Except Result ReadJob) {job : ReadJob}
    (h : s.Executing i) (checked : check s = .ok job) : s.serveRead i check = s.beginRead job := by
  unfold State.serveRead State.request
  rw [if_pos (show s.link.handler = _ ∧ _ from h)]
  simp only [checked]

section
variable {s : State} {serial : Word} {e : IndexEntry} (ready : s.store.state = .ready)
  (found : s.records.entryOf serial = some e)

include ready found in
theorem readRecordCheck_found (first : Half) : readRecordCheck serial first s
    = if e.frameCount < first.toNat then .error .badArgument else .ok (.read e first.toNat) := by
  unfold readRecordCheck
  rw [if_neg (Store.not_scanning ready), found]

include ready found in
theorem verifyRecordCheck_found : verifyRecordCheck serial s = .ok (.verify e) := by
  unfold verifyRecordCheck
  rw [if_neg (Store.not_scanning ready), found]

end

/-! ### Reads end (R102, R167) -/

/-- A body that leaves a state whatever the link, and answers it with data. -/
theorem State.answer_changes (s r : State) (i : Instr) (body : State → State × Answer) (data : List Byte)
    (hb : ∀ l k, body (s.relinked l k) = (r.relinked l k, .ok data)) :
    ∃ t, s.answer (reqOf i) false body = t ∧ t = r.relinked t.link t.freeKey ∧ s.Answered t i .ok data := by
  rw [s.answer_congr (reqOf i) false body (fun u => (r.relinked u.link u.freeKey, .ok data)) hb]
  obtain ⟨u, -, only, answered⟩ := s.answer_spec i (fun u => (r.relinked u.link u.freeKey, .ok data)) fun _ => rfl
  rw [replyTo_ok] at answered
  refine ⟨_, rfl, ?_, answered⟩
  rw [only]
  rfl

/-- The array once a read is over, before a commit that waited for it goes on. -/
def State.unread (s : State) : State :=
  { s with store := { s.store with
    read := none, op := s.store.op.map (ArrayOp.mapErase (EraseOp.resume s.time.elapsed)) } }

theorem State.endRead_alone {s : State} (commit : s.records.commit = none) (work : s.store.work = [])
    (queue : s.inc.queue = []) (pending : ∀ x : Fin 64, s.store.sectors[x].pending = false) : s.endRead = s.unread := by
  have resumes : s.unread.resumeCommit = s.unread := by
    unfold State.resumeCommit
    have none : s.unread.records.commit = none := commit
    rw [none]
  have run : s.endRead = s.unread.resumeCommit.arbitrate := rfl
  rw [run, resumes]
  exact s.unread.arbitrate_no_work work queue (Store.toReclaim_none pending)

theorem exec_arrayReadDone {i : Instr} {s : State} {job : ReadJob} (reading : s.store.read = some job)
    (handler : s.link.handler = .executing (reqOf i)) (served : s.store.programming = false) : exec .arrayReadDone s
      = .next (s.answer (reqOf i) false fun t => (t.endRead, .ok (s.store.readData job))) := by
  change execArrayReadDone s = _
  unfold execArrayReadDone
  rw [reading, handler]
  dsimp only
  rw [served]
  rfl

/-- Settles O58: reads begin at their request and are answered at their end. -/
theorem recordReadsAreServed : Obligations.RecordReadsAreServed := by
  refine ⟨fun tag serial first s e ready found => ?_,
    fun i s job reading handler served commit work queue pending => ?_⟩
  · intro suspended
    have same : suspended = s.store.op.map (ArrayOp.mapErase (EraseOp.suspend s.time.elapsed)) := by
      refine congrArg (fun f => s.store.op.map f) (funext fun o => ?_)
      cases o with
      | erase a =>
        unfold ArrayOp.mapErase EraseOp.suspend
        cases a.since <;> rfl
      | program p => rfl
    clear_value suspended
    subst same
    refine ⟨fun executing le => ?_, fun executing more => ?_, fun executing => ?_⟩
    · have checked := (readRecordCheck_found ready found first).trans (if_neg (Nat.not_lt.mpr le))
      exact congrArg _ (s.serveRead_begins (.readRecord tag serial first) _ executing checked)
    · refine s.serveRead_refuses _ (readRecordCheck serial first) .badArgument rfl executing ?_
      exact (readRecordCheck_found ready found first).trans (if_pos more)
    · have checked := verifyRecordCheck_found ready found
      exact congrArg _ (s.serveRead_begins (.verifyRecord tag serial) _ executing checked)
  · obtain ⟨t, run, only, answered⟩ := s.answer_changes s.unread i (fun t => (t.endRead, .ok (s.store.readData job)))
      (s.store.readData job) fun l k => by
        rw [State.endRead_alone (s := s.relinked l k) commit work queue pending]
        rfl
    have op : t.store.op = s.store.op.map (ArrayOp.mapErase (EraseOp.resume s.time.elapsed)) := by rw [only]; rfl
    refine ⟨t, (exec_arrayReadDone reading handler served).trans (congrArg _ run), ?_, fun e erase suspended => ?_,
      fun free => ?_, ?_, ?_⟩
    · rw [op]
      exact only
    · rw [op, erase]
      unfold EraseOp.resume
      simp only [Option.map_some, ArrayOp.mapErase, suspended, if_true]
    · rw [op, free]
      rfl
    · rintro e first rfl
      exact ⟨_, e.readReply_replied first _, answered⟩
    · rintro e rfl
      exact ⟨_, e.verifyReply_replied _, answered⟩

end Sys2Proof.Machine
end

section
/-! PROOFS. What the start-up scan makes of the array: classes, index, sector table (R106, R119, R139, R141 to R149). -/

namespace Sys2Proof.Machine

/-! ### Blank bytes -/

theorem lookupKey_mem {α : Type} {k : Nat} {v : α} {l : List (Nat × α)} (h : lookupKey k l = some v) : (k, v) ∈ l := by
  induction l with
  | nil => exact (Option.some_ne_none v h.symm).elim
  | cons c rest ih =>
    unfold lookupKey at h
    split at h
    next here =>
      obtain rfl := Option.some.inj h
      rw [← here]
      exact List.mem_cons_self
    next => exact List.mem_cons_of_mem c (ih h)

theorem lookupKey_of_mem {α : Type} {c : Nat × α} {l : List (Nat × α)} (rising : risingKeys l = true) (h : c ∈ l) :
    lookupKey c.1 l = some c.2 := by
  rw [risingKeys_iff_pairwise] at rising
  induction l with
  | nil => exact (List.not_mem_nil h).elim
  | cons d rest ih =>
    obtain ⟨first, later⟩ := List.pairwise_cons.mp rising
    unfold lookupKey
    obtain rfl | behind := List.mem_cons.mp h
    · exact if_pos rfl
    · exact (if_neg (Nat.ne_of_lt (first c behind))).trans (ih later behind)

/-- The blank check of a range says that every byte of it reads FFh. -/
theorem Memory.blankIn_iff {m : Memory} (canonical : m.wf = true) (n : Nat) :
    m.blankIn 0 n = true ↔ ∀ a < n, m.read a = 0xFF#8 := by
  obtain ⟨fill, cells⟩ := m
  unfold Memory.wf at canonical
  rw [Bool.and_eq_true] at canonical
  obtain ⟨rising, full⟩ := canonical
  unfold Memory.blankIn
  cases fill with
  | undef key => simp only [List.all_eq_true, List.mem_range, beq_iff_eq, Nat.zero_add, Nat.sub_zero]
  | blank =>
    simp only [List.all_eq_true, Bool.or_eq_true, decide_eq_true_eq]
    constructor
    · intro outside a inside
      have unlisted : lookupKey a cells = none := by
        by_contra listed
        obtain ⟨v, found⟩ := Option.ne_none_iff_exists'.mp listed
        have apart := outside _ (lookupKey_mem found)
        dsimp only at apart
        omega
      simp only [Memory.read, unlisted, Option.getD_none, Fill.byte]
    · intro blank c member
      by_contra inside
      rw [not_or, Nat.not_le] at inside
      have read := blank c.1 inside.2
      rw [Memory.read, lookupKey_of_mem rising member, Option.getD_some] at read
      simp only [bne_self_eq_false, Bool.false_or, List.all_eq_true, bne_iff_ne] at full
      exact full c member read

theorem allBlank_iff (bytes : List Byte) : allBlank bytes = true ↔ bytes = List.replicate bytes.length 0xFF#8 := by
  unfold allBlank
  rw [List.eq_replicate_iff]
  simp only [List.all_eq_true, beq_iff_eq, true_and]

/-! ### Classes (R139, R141) -/

/-- The header of a sector (R119). -/
def Sector.head (v : Sector) : List Byte := v.mem.readRange 0 64

/-- Every byte of the sector reads FFh. -/
def Sector.isBlank (v : Sector) : Prop := ∀ a < 32768, v.mem.read a = 0xFF#8

/-- The sector header is valid (R119). -/
def Sector.isValid (v : Sector) : Prop :=
  v.head.take 4 = encLE 4 0x3C5A96C3#32 ∧ crcAt v.head 8 = crc16 (v.head.take 8)

/-- The sequence its header holds. -/
def Sector.sequence (v : Sector) : Word := decLE 4 (v.head.drop 4)

section
variable {v : Sector}

theorem Sector.isValid_iff : sectorHeaderGood v.head = true ↔ v.isValid := by
  unfold sectorHeaderGood Sector.isValid
  rw [Bool.and_eq_true, beq_iff_eq, beq_iff_eq]
  rfl

theorem Sector.allBlank_head : allBlank v.head = true ↔ v.head = List.replicate 64 0xFF#8 := by
  rw [allBlank_iff, Sector.head, Memory.readRange_length]

theorem Sector.isBlank.head (h : v.isBlank) : v.head = List.replicate 64 0xFF#8 := by
  refine List.eq_replicate_iff.mpr ⟨Memory.readRange_length _ _ _, fun b member => ?_⟩
  obtain ⟨i, inside, rfl⟩ := List.mem_map.mp member
  have := List.mem_range.mp inside
  exact h _ (by omega)

/-- A blank header is not valid. -/
theorem Sector.isValid.unblank (h : v.isValid) : v.head ≠ List.replicate 64 0xFF#8 := by
  intro blank
  have magic := h.1
  rw [blank] at magic
  exact absurd magic (by decide)

variable (canonical : v.mem.wf = true)

include canonical in
theorem Sector.classify_blank (complete : v.eraseComplete = true) (blank : v.isBlank) :
    v.classify = (.erased, false) := by
  have all : v.mem.blankIn 0 Config.sectorSize = true := (Memory.blankIn_iff canonical _).mpr blank
  unfold Sector.classify
  rw [complete, all]
  rfl

theorem Sector.classify_incomplete (incomplete : v.eraseComplete ≠ true) : v.classify = (.dirty, false) := by
  unfold Sector.classify
  rw [Bool.eq_false_iff.mpr incomplete]
  rfl

include canonical in
theorem Sector.classify_written (complete : v.eraseComplete = true) (written : ¬ v.isBlank) : v.classify
    = if allBlank v.head = true then (.dirty, false)
      else if sectorHeaderGood v.head = true then (.headed v.sequence, false) else (.dirty, true) := by
  have some_ : v.mem.blankIn 0 Config.sectorSize = false :=
    Bool.eq_false_iff.mpr fun all => written ((Memory.blankIn_iff canonical _).mp all)
  unfold Sector.classify
  rw [complete, some_]
  rfl

include canonical in
theorem Sector.classify_valid (complete : v.eraseComplete = true) (valid : v.isValid) :
    v.classify = (.headed v.sequence, false) := by
  rw [Sector.classify_written canonical complete fun blank => valid.unblank blank.head,
    if_neg fun all => valid.unblank (Sector.allBlank_head.mp all), if_pos (Sector.isValid_iff.mpr valid)]

include canonical in
theorem Sector.classify_dirty (h : v.eraseComplete ≠ true ∨ (¬ v.isBlank ∧ ¬ v.isValid)) : (v.classify).1 = .dirty := by
  by_cases complete : v.eraseComplete = true
  · obtain ⟨written, bad⟩ := h.resolve_left (not_not.mpr complete)
    rw [Sector.classify_written canonical complete written]
    split
    · rfl
    · rw [if_neg fun good => bad (Sector.isValid_iff.mp good)]
  · rw [Sector.classify_incomplete complete]

include canonical in
/-- Damage of a header that is neither blank nor valid (R141). -/
theorem Sector.classify_damaged (complete : v.eraseComplete = true) (written : v.head ≠ List.replicate 64 0xFF#8)
    (bad : ¬ v.isValid) : (v.classify).2 = true := by
  rw [Sector.classify_written canonical complete fun blank => written blank.head,
    if_neg fun all => written (Sector.allBlank_head.mp all), if_neg fun good => bad (Sector.isValid_iff.mp good)]

include canonical in
theorem Sector.headed_iff (seq : Word) : (v.classify).1 = .headed seq ↔
    v.eraseComplete = true ∧ v.isValid ∧ v.sequence = seq := by
  constructor
  · intro headed
    by_cases clean : (v.eraseComplete = true ∧ v.isBlank) ∨ v.eraseComplete ≠ true ∨ ¬ v.isValid
    · by_cases blank : v.eraseComplete = true ∧ v.isBlank
      · rw [Sector.classify_blank canonical blank.1 blank.2] at headed
        exact (nomatch headed)
      · have dirty := Sector.classify_dirty canonical (v := v) (by tauto)
        exact (nomatch dirty.symm.trans headed)
    · obtain ⟨-, complete, valid⟩ : _ ∧ v.eraseComplete = true ∧ v.isValid := by tauto
      rw [Sector.classify_valid canonical complete valid] at headed
      exact ⟨complete, valid, SectorClass.headed.inj headed⟩
  · rintro ⟨complete, valid, rfl⟩
    rw [Sector.classify_valid canonical complete valid]

end

end Sys2Proof.Machine
end

section
/-! PROOFS. The rebuilt tables: what the scan leaves in sector table, index and faults (R106, R145 to R149). -/

namespace Sys2Proof.Machine

/-! ### Sectors settled by their findings (R145, R148) -/

section
variable (w : ScanWork) (f : SectorFinding) (v : Sector)

theorem Sector.settled_eraseComplete : (v.settled w f).eraseComplete = v.eraseComplete := by
  have settles (u : Sector) : u.settle.eraseComplete = u.eraseComplete := by rw [Sector.settle_only]
  unfold Sector.settled
  split
  · rfl
  · exact settles _
  · dsimp only
    split
    · rfl
    · exact settles _

variable {f}

theorem Sector.settled_erased (cls : f.cls = .erased) : v.settled w f
    = { v with state := .erased, seq := none, fillOffset := none, live := 0, dead := 0, pending := false } := by
  unfold Sector.settled
  rw [cls]

theorem Sector.settled_dirty (cls : f.cls = .dirty) : v.settled w f
    = { v with state := .dirty, seq := none, fillOffset := none, live := 0, dead := 0
               pending := v.protection == .unlocked } := by
  unfold Sector.settled
  rw [cls]
  unfold Sector.settle Sector.reclaimable
  cases v.protection <;> rfl

theorem Sector.settle_full {u : Sector} (full : u.state = .full) (calm : u.pending = false) :
    u.settle.seq = u.seq ∧ u.settle.live = u.live ∧ u.settle.state = .full
      ∧ (u.settle.pending = true ↔ u.protection = .unlocked ∧ u.live = 0) := by
  have candidate : u.reclaimable = true ↔ u.protection = .unlocked ∧ u.live = 0 := by
    unfold Sector.reclaimable
    simp [full]
  unfold Sector.settle
  split
  next reclaims => exact ⟨rfl, rfl, full, fun _ => candidate.mp reclaims, fun _ => rfl⟩
  next keeps =>
    exact ⟨rfl, rfl, full, fun h => absurd (calm.symm.trans h) Bool.false_ne_true,
      fun h => absurd (candidate.mpr h) keeps⟩

/-- A headed sector: OPEN only as the last headed one, closed nowhere and UNLOCKED; else FULL, pending as R106 says. -/
theorem Sector.settled_headed {seq : Word} (cls : f.cls = .headed seq) :
    (v.settled w f).seq = some seq ∧ (v.settled w f).live = (w.indexed.filter fun e => e.sector == f.sector).length
      ∧ (((v.settled w f).state = .opened ∧ (v.settled w f).pending = false ∧ (v.settled w f).fillOffset ≠ none
            ∧ v.protection = .unlocked ∧ w.lastHeaded = some f)
          ∨ ((v.settled w f).state = .full
            ∧ ((v.settled w f).pending = true ↔ v.protection = .unlocked ∧ (v.settled w f).live = 0))) := by
  unfold Sector.settled
  rw [cls]
  dsimp only
  generalize (w.indexed.filter fun e => e.sector == f.sector).length = n
  split
  next open_ => exact ⟨rfl, rfl, .inl ⟨rfl, rfl, Option.some_ne_none _, open_.2.2, open_.1⟩⟩
  next =>
    obtain ⟨sequence, live, state, pending⟩ := Sector.settle_full (u := { v with
      state := .full, seq := some seq, fillOffset := none, live := n
      dead := f.dead + lengthsOf (w.leftOut.filter fun e => e.sector == f.sector)
        + if f.closedAt = none then Config.sectorSize - f.endAt else 0
      pending := false }) rfl rfl
    exact ⟨sequence, live, .inr ⟨state, by rw [pending, live]⟩⟩

end

/-! ### The walk of the headed sectors (R142 to R147) -/

theorem Store.scanAll_eq (st : Store) : st.scanAll = st.headed.foldl st.walkSector { ScanWork.fresh st.scan.cause with
    damage := allSectors.any (fun x => (st.sectors[x].classify).2), findings := st.bareFindings
    highestSeq := st.headed.getLast?.map (·.2) } := rfl

theorem Store.scanAll_cause (st : Store) : st.scanAll.cause = st.scan.cause := by
  rw [st.scanAll_eq]
  exact (st.foldl_walkSector _ _).2.2.1

theorem Store.scanAll_damage (st : Store) (x : Fin 64) (damaged : (st.sectors[x].classify).2 = true) :
    st.scanAll.damage = true := by
  rw [st.scanAll_eq]
  exact (st.foldl_walkSector _ _).2.2.2.1 (List.any_eq_true.mpr ⟨x, List.mem_finRange x, damaged⟩)

/-- The records found: in headed sectors, in rising serials. -/
theorem Store.scanAll_rising (st : Store) :
    st.scanAll.Rising fun x => ∃ seq, (st.sectors[x].classify).1 = .headed seq := by
  rw [st.scanAll_eq]
  refine (st.foldl_walkSector _ _).2.2.2.2 _ (fun c member => ⟨c.2, (st.mem_headed c).mp member⟩) ?_
  exact ⟨.nil, fun _ h => (List.not_mem_nil h).elim, fun h => (nomatch h), fun _ h => (List.not_mem_nil h).elim⟩

theorem ScanWork.indexed_sublist (w : ScanWork) : w.indexed.Sublist w.found := List.drop_sublist _ _

theorem ScanWork.indexed_length (w : ScanWork) : w.indexed.length ≤ 1024 := by
  have capacity : Config.indexCapacity = 1024 := rfl
  unfold ScanWork.indexed lastN
  rw [List.length_drop, capacity]
  omega

/-- The next serial is above every serial found (R147). -/
theorem ScanWork.Rising.next {of : Fin 64 → Prop} {w : ScanWork} (h : w.Rising of) {e : IndexEntry}
    (found : e ∈ w.found) :
    e.serial < oneAbove w.highestSerial := by
  obtain ⟨top, highest, le⟩ := h.seen e found
  have notLast := h.notLast
  rw [highest] at notLast ⊢
  have apart : top ≠ 0xFFFFFFFF#32 := fun e => notLast (congrArg some e)
  have next : oneAbove (some top) = top + 1 := rfl
  rw [next]
  bv_omega

/-- Blank sectors alone: nothing is found, and nothing seen. -/
theorem Store.scanAll_blank {st : Store} (blank : ∀ x : Fin 64, st.sectors[x].classify = (.erased, false)) :
    st.scanAll.found = [] ∧ st.scanAll.highestSerial = none ∧ st.scanAll.highestSeq = none
        ∧ st.scanAll.damage = false := by
  have none_headed : st.headed = [] := List.eq_nil_iff_forall_not_mem.mpr fun c member => by
    have headed := (st.mem_headed c).mp member
    rw [blank c.1] at headed
    exact (nomatch headed)
  have none_damaged : allSectors.any (fun x => (st.sectors[x].classify).2) = false :=
    List.any_eq_false.mpr fun x _ => by rw [blank x]; exact Bool.false_ne_true
  rw [st.scanAll_eq, none_headed, none_damaged]
  exact ⟨rfl, rfl, rfl, rfl⟩

/-! ### The state of the finish (R149) -/

section
variable (s : State)

theorem State.scanned_sector (x : Fin 64) : s.scanned.store.sectors[x] = (s.store.settleAll s.store.scanAll)[x] := by
  simp only [State.scanned]

theorem State.scanned_records : s.scanned.records
    = { s.records with index := s.store.scanAll.indexed, nextSerial := oneAbove s.store.scanAll.highestSerial } := by
  simp only [State.scanned]

theorem State.scanned_index : s.scanned.records.index = s.store.scanAll.indexed
    ∧ s.scanned.records.nextSerial = oneAbove s.store.scanAll.highestSerial := by
  simp only [State.scanned, and_self]

theorem State.scanned_faults : s.scanned.store.faults
    = { s.store.faults with scanDamage := s.store.faults.scanDamage || s.store.scanAll.damage } := by
  simp only [State.scanned]

theorem State.scanned_keeps : s.scanned.store.op = s.store.op ∧ s.scanned.store.holder = s.store.holder
    ∧ s.scanned.store.work = s.store.work ∧ s.scanned.lines = s.lines ∧ s.scanned.capture = s.capture
    ∧ s.scanned.matcher = s.matcher ∧ s.scanned.inc = s.inc ∧ s.scanned.time = s.time := by
  simp only [State.scanned, and_self]

theorem State.scanned_nextSeq : s.scanned.store.nextSeq = sequenceAbove s.store.scanAll.highestSeq := by
  simp only [State.scanned]

theorem State.scanned_link : s.scanned.link = s.link ∧ s.scanned.time = s.time
    ∧ s.scanned.store.scan.cause = s.store.scan.cause := by
  simp only [State.scanned, Store.scanAll_cause, and_self]

end

/-- The sector a finding settles, for all three classes (R141, R145, R148). -/
theorem State.scanned_classed (s : State) (canonical : ∀ x : Fin 64, s.store.sectors[x].mem.wf = true) (x : Fin 64) :
    let v := s.store.sectors[x]
    let w := s.scanned.store.sectors[x]
    w.mem = v.mem ∧ w.protection = v.protection ∧ w.eraseComplete = v.eraseComplete
      ∧ (v.eraseComplete = true → v.isBlank →
          w = { v with state := .erased, seq := none, fillOffset := none, live := 0, dead := 0, pending := false })
      ∧ (v.eraseComplete ≠ true ∨ (¬ v.isBlank ∧ ¬ v.isValid) →
          w = { v with state := .dirty, seq := none, fillOffset := none, live := 0, dead := 0
                       pending := v.protection == .unlocked })
      ∧ (v.eraseComplete = true → v.isValid → w.seq = some v.sequence ∧ (w.state = .opened ∨ w.state = .full)
          ∧ w.live = (s.scanned.records.index.filter fun e => e.sector == x).length
          ∧ (w.pending = true ↔ w.state = .full ∧ v.protection = .unlocked ∧ w.live = 0)
          ∧ (w.state = .opened → v.protection = .unlocked ∧ w.fillOffset ≠ none
              ∧ ∀ y : Fin 64, s.store.sectors[y].eraseComplete = true → s.store.sectors[y].isValid →
                  s.store.sectors[y].sequence ≤ v.sequence)) := by
  dsimp only
  obtain ⟨f, -, sector, cls, settled⟩ := s.store.settleAll_sector x
  rw [State.scanned_sector, settled, s.scanned_index.1]
  refine ⟨Sector.settled_mem _ _ _, (Sector.settled_guarded _ _ _).2.2, Sector.settled_eraseComplete _ _ _,
    fun complete blank => ?_, fun bad => ?_, fun complete valid => ?_⟩
  · rw [Sector.classify_blank (canonical x) complete blank] at cls
    exact Sector.settled_erased _ _ cls
  · rw [Sector.classify_dirty (canonical x) bad] at cls
    exact Sector.settled_dirty _ _ cls
  · rw [Sector.classify_valid (canonical x) complete valid] at cls
    obtain ⟨seq, live, state⟩ := Sector.settled_headed s.store.scanAll s.store.sectors[x] cls
    rw [sector] at live
    refine ⟨seq, ?_, live, ?_, fun opened => ?_⟩
    · exact state.imp (fun h => h.1) fun h => h.1
    · obtain ⟨opened, calm, -⟩ | ⟨full, pends⟩ := state
      · exact ⟨fun h => (nomatch calm.symm.trans h), fun h => (nomatch opened.symm.trans h.1)⟩
      · exact ⟨fun h => ⟨full, pends.mp h⟩, fun h => pends.mpr h.2⟩
    · obtain ⟨-, -, fill, unlocked, last⟩ | ⟨full, -⟩ := state
      · refine ⟨unlocked, fill, fun y complete valid => ?_⟩
        refine s.store.lastHeaded_highest last cls (y, s.store.sectors[y].sequence) ((s.store.mem_headed _).mpr ?_)
        exact congrArg Prod.fst (Sector.classify_valid (canonical y) complete valid)
      · exact (nomatch opened.symm.trans full)

/-- Settles O59: classes by the bytes, index and counters by the walk, STARTED by the state it reports. -/
theorem scanClassesAndRebuilds : Obligations.ScanClassesAndRebuilds := by
  intro s scanning canonical head blank valid complete sequence
  have canonical := (State.memoriesCanonical_iff s).mp canonical |>.2
  have rising := s.store.scanAll_rising
  have run : exec .scanFinish s = .next s.finishScan := if_pos scanning
  obtain ⟨link, time, cause⟩ := s.scanned_link
  obtain ⟨index, next⟩ := s.scanned_index
  obtain ⟨op, holder, work, lines, capture, matcher, inc, -⟩ := s.scanned_keeps
  refine ⟨s.scanned.notify s.scanned.startedNotice, run.trans (congrArg _ s.finishScan_eq), ?_,
    s.scanned_classed canonical, ?_, ?_, fun e member => ?_, ?_, ?_, fun damaged => ?_,
    fun x whole written bad => ?_, ?_, op, holder, work, (State.notify_lines _ _).trans lines, (State.notify_capture _ _).trans capture,
    (State.notify_matcher _ _).trans matcher, (State.notify_inc _ _).trans inc, (State.notify_time _ _).trans time,
    fun clean => ?_⟩
  · simp only [State.notify_store, State.scanned]
  · rw [State.notify_records, index]
    exact s.store.scanAll.indexed_length
  · rw [State.notify_records, index]
    exact rising.rising.sublist s.store.scanAll.indexed_sublist
  · rw [State.notify_records] at member ⊢
    rw [index] at member
    rw [next]
    have found := s.store.scanAll.indexed_sublist.subset member
    obtain ⟨seq, headed⟩ := rising.sector e found
    obtain ⟨whole, good, -⟩ := (Sector.headed_iff (canonical e.sector) seq).mp headed
    exact ⟨rising.next found, whole, good⟩
  · rw [State.notify_store, State.scanned_faults]
  · rw [State.notify_store, State.scanned_faults]
  · rw [State.notify_store, State.scanned_faults, damaged]
    rfl
  · rw [State.notify_store, State.scanned_faults,
      s.store.scanAll_damage x (Sector.classify_damaged (canonical x) whole written bad)]
    exact Bool.or_true _
  · have queued : (s.scanned.notify s.scanned.startedNotice).link
        = s.scanned.link.notify s.scanned.time.tod s.scanned.startedNotice := rfl
    rw [queued, link, time, State.startedNotice, cause, State.notify_store, State.notify_records]
  · obtain ⟨found, serial, seq, undamaged⟩ := Store.scanAll_blank fun x =>
      Sector.classify_blank (canonical x) (clean x).1 (clean x).2
    have indexed : s.store.scanAll.indexed = [] := List.sublist_nil.mp (found ▸ s.store.scanAll.indexed_sublist)
    refine ⟨?_, ?_, ?_⟩
    · rw [State.notify_records, State.scanned_records, indexed, serial]
      rfl
    · rw [State.notify_store, State.scanned_nextSeq, seq]
      rfl
    · rw [State.notify_store, State.scanned_faults, undamaged, Bool.or_false]

end Sys2Proof.Machine
end

section
/-! PROOFS. The walk over what commits programmed (R120 to R123, R142 to R144, R146). -/

namespace Sys2Proof.Machine

/-! ### Fields read back (R189) -/

theorem leNat_leBytes (k n : Nat) : leNat (leBytes k n) = n % 256 ^ k := by
  induction k generalizing n with
  | zero => rw [Nat.pow_zero, Nat.mod_one]; rfl
  | succ k ih =>
    have low : (BitVec.ofNat 8 n).toNat = n % 256 := BitVec.toNat_ofNat n 8
    rw [leBytes, leNat, ih, low, Nat.pow_succ', Nat.mod_mul]

theorem leNat_u16 {n : Nat} (small : n < 65536) : leNat (u16 n) = n :=
  (leNat_leBytes 2 n).trans (Nat.mod_eq_of_lt small)

theorem decLE_of_take {k : Nat} {x : BitVec (8 * k)} {bytes : List Byte} (field : bytes.take k = encLE k x) :
    decLE k bytes = x := by
  have width : 256 ^ k = 2 ^ (8 * k) := (Nat.pow_mul 2 8 k).symm
  rw [decLE, field, encLE, leNat_leBytes, width, Nat.mod_eq_of_lt x.isLt, BitVec.ofNat_toNat, BitVec.setWidth_eq]

theorem crcBytes_joined (c : Half) : c.extractLsb' 8 8 ++ c.extractLsb' 0 8 = c := by
  have joined : c.extractLsb' 8 8 ++ c.extractLsb' 0 8 = c.extractLsb' 0 16 :=
    BitVec.extractLsb'_append_extractLsb'_eq_extractLsb' rfl
  exact joined.trans BitVec.extractLsb'_eq_self

/-! ### A record's header read back (R120) -/

section
variable (mark : Byte) (n : Incident) (serial : Word) (size : Nat)

theorem recordHeader_set (state : Byte) :
    (recordHeader state n serial size).set 4 mark = recordHeader mark n serial size := rfl

theorem stateByte_recordHeader : byteAt (recordHeader mark n serial size) stateOffset = mark := rfl

theorem recordStateCode_complete : recordStateCode stateComplete = 1 := rfl
theorem recordStateCode_discarded : recordStateCode stateDiscarded = 2 := rfl
theorem recordStateCode_begun : recordStateCode stateBegun = 0 := rfl

theorem headerSerial_recordHeader : headerSerial (recordHeader mark n serial size) = serial :=
  decLE_of_take (k := 4) (x := serial) rfl

variable {size} in
theorem headerSize_recordHeader (small : size < 65536) : headerSize (recordHeader mark n serial size) = size :=
  leNat_u16 small

theorem headerGood_recordHeader : headerGood (recordHeader mark n serial size) = true := by
  have magic : (recordHeader mark n serial size).take 4 = encLE 4 recordMagic := rfl
  have crc : crcAt (recordHeader mark n serial size) 30 = headerCrcOf (recordHeader mark n serial size) :=
    crcBytes_joined _
  rw [headerGood, magic, crc, beq_self_eq_true, beq_self_eq_true, Bool.and_self]

/-- A programmed header is never taken for the blank end of the records: its magic is not blank. -/
theorem allBlank_recordHeader : allBlank (recordHeader mark n serial size) = false := rfl

/-- A header as programmed is valid where its serial is above those seen and its record lies in the sector (R142). -/
theorem headerValid_recordHeader {at_ : Nat} {highest : Option Word} (notNone : serial ≠ 0#32)
    (notLast : serial ≠ 0xFFFFFFFF#32) (aligned : size % 4 = 0) (least : 80 ≤ size) (inside : at_ + size ≤ 32768)
    (above : ∀ t, highest = some t → t < serial) :
    headerValid (recordHeader mark n serial size) at_ highest = true := by
  have seen : highest.all (fun t => decide (t < serial)) = true :=
    Option.all_eq_true _ _ |>.mpr fun t here => decide_eq_true (above t here)
  have sector : Config.sectorSize = 32768 := rfl
  unfold headerValid
  rw [headerGood_recordHeader, headerSerial_recordHeader, headerSize_recordHeader mark n serial (by omega), seen,
    sector]
  simp [notNone, notLast, aligned, least, inside]

theorem closeCode_beq_full (reason : Option CloseReason) :
    (closeCode reason == CloseReason.full.code) = (reason == some .full) := by
  cases reason with
  | none => rfl
  | some r => cases r <;> rfl

theorem incidentFlags_trimmed (trimmed retried : Bool) : inSet (incidentFlags trimmed retried false) 0 = trimmed := by
  cases trimmed <;> cases retried <;> rfl

theorem incidentFlags_retried (trimmed retried : Bool) : inSet (incidentFlags trimmed retried false) 1 = retried := by
  cases trimmed <;> cases retried <;> rfl

/-- The scan rebuilds the entry that the commit gave the index (R123, R146). -/
theorem foundEntry_recordHeader (p : Programming) (small : size < 65536) (few : n.frames.length < 65536) :
    foundEntry p.sector p.offset (recordHeader mark n p.serial size) = indexEntryOf n p size := by
  have id : decLE 2 ((recordHeader mark n p.serial size).drop 14) = n.id := decLE_of_take (k := 2) (x := n.id) rfl
  have time : decLE 6 ((recordHeader mark n p.serial size).drop 18) = n.triggerTime :=
    decLE_of_take (k := 6) (x := n.triggerTime) rfl
  have frames : leNat (((recordHeader mark n p.serial size).drop 28).take 2) = n.frames.length := leNat_u16 few
  have trimmed : inSet (byteAt (recordHeader mark n p.serial size) 25) 0 = n.preTrimmed := incidentFlags_trimmed _ _
  have retried : inSet (byteAt (recordHeader mark n p.serial size) 25) 1 = n.retried := incidentFlags_retried _ _
  have full : (byteAt (recordHeader mark n p.serial size) 26 == CloseReason.full.code)
      = (n.closeReason == some .full) := closeCode_beq_full _
  unfold foundEntry
  rw [headerSerial_recordHeader, headerSize_recordHeader _ _ _ small, id, time, frames, trimmed, retried, full]
  rfl

/-! ### The end marker read back (R122) -/

theorem markerGood_endMarker (crc : Half) : markerGood (endMarker serial size crc) serial size = true := by
  have magic : (endMarker serial size crc).take 4 = encLE 4 endMagic := rfl
  have serials : ((endMarker serial size crc).drop 4).take 4 = encLE 4 serial := rfl
  have sizes : ((endMarker serial size crc).drop 8).take 2 = u16 size := rfl
  rw [markerGood, magic, serials, sizes, beq_self_eq_true, beq_self_eq_true, beq_self_eq_true, Bool.and_self,
    Bool.and_self]

theorem endMarker_length (crc : Half) : (endMarker serial size crc).length = 16 := rfl

end

/-! ### A programmed record in the array (R120, R121, R122) -/

theorem Memory.readRange_take (m : Memory) (a : Nat) {k n : Nat} (le : k ≤ n) :
    (m.readRange a n).take k = m.readRange a k := by
  rw [Memory.readRange, ← List.map_take, List.take_range, Nat.min_eq_left le, Memory.readRange]

theorem Memory.readRange_drop (m : Memory) (a : Nat) (k n : Nat) :
    (m.readRange a n).drop k = m.readRange (a + k) (n - k) := by
  refine List.ext_getElem ?_ fun i _ _ => ?_
  · rw [List.length_drop, Memory.readRange_length, Memory.readRange_length]
  · rw [List.getElem_drop, Memory.readRange_getElem, Memory.readRange_getElem, Nat.add_assoc]

/-- A state mark changes the header alone. -/
theorem Capture.recordImage_mark (c : Capture) (n : Incident) (serial : Word) (size : Nat) (mark : Byte) :
    (c.recordImage n serial size).set 4 mark = recordHeader mark n serial size ++ (c.entries n.frames
      ++ endMarker serial size (recordCrc (recordHeader stateBegun n serial size) (c.entries n.frames))) := by
  unfold Capture.recordImage
  dsimp only
  rw [List.append_assoc, List.set_append_left _ _ (by rw [recordHeader_length]; omega), recordHeader_set]

section
variable {m : Memory} {at_ size : Nat} {c : Capture} {n : Incident} {serial : Word} {mark : Byte}
  (stored : m.readRange at_ size = (c.recordImage n serial size).set 4 mark)
  (sized : (c.recordImage n serial size).length = size)

include stored in
/-- Where a record stands its header is read. -/
theorem readRange_header (least : 64 ≤ size) : m.readRange at_ 64 = recordHeader mark n serial size := by
  rw [← m.readRange_take at_ least, stored, c.recordImage_mark]
  exact List.take_left' (recordHeader_length mark n serial size)

include stored sized in
/-- Its end marker is read in its last 16 bytes. -/
theorem readRange_marker (least : 16 ≤ size) : ∃ crc,
    m.readRange (at_ + size - 16) 16 = endMarker serial size crc := by
  have start : at_ + size - 16 = at_ + (size - 16) := by omega
  have rest : size - (size - 16) = 16 := by omega
  refine ⟨recordCrc (recordHeader stateBegun n serial size) (c.entries n.frames), ?_⟩
  have marker := m.readRange_drop at_ (size - 16) size
  rw [rest] at marker
  rw [start, ← marker, stored, c.recordImage_mark, ← List.append_assoc]
  refine List.drop_left' ?_
  rw [← List.length_set (i := 4) (a := mark), c.recordImage_mark, ← List.append_assoc, List.length_append,
    endMarker_length] at sized
  omega

end

/-! ### The walk at a valid header (R142, R143) -/

section
variable {m : Memory} {at_ : Nat} {w : ScanWork} (x : Fin 64) (fuel live dead : Nat)

variable {h : List Byte} (before : at_ ≤ 32704) (read : m.readRange at_ 64 = h) (written : allBlank h = false)
  (valid : headerValid h at_ w.highestSerial = true)

include before read written valid

theorem walkRecords_discarded (state : recordStateCode (byteAt h stateOffset) = 2) :
    walkRecords m x (fuel + 1) at_ live dead w
      = walkRecords m x fuel (at_ + headerSize h) live (dead + headerSize h)
          { w with highestSerial := some (headerSerial h) } := by
  rw [walkRecords, if_neg (Nat.not_lt.mpr before)]
  simp only [read, written, valid, state]
  rfl

theorem walkRecords_complete (state : recordStateCode (byteAt h stateOffset) = 1)
    (marked : markerGood (m.readRange (at_ + headerSize h - 16) 16) (headerSerial h) (headerSize h) = true) :
    walkRecords m x (fuel + 1) at_ live dead w
      = walkRecords m x fuel (at_ + headerSize h) (live + 1) dead
          { w with highestSerial := some (headerSerial h), found := w.found ++ [foundEntry x at_ h] } := by
  rw [walkRecords, if_neg (Nat.not_lt.mpr before)]
  simp only [read, written, valid, state, marked]
  rfl

theorem walkRecords_begun (state : recordStateCode (byteAt h stateOffset) = 0) :
    walkRecords m x (fuel + 1) at_ live dead w
      = ({ w with highestSerial := some (headerSerial h), torn := w.torn + 1 }, closeWalk at_ live dead) := by
  rw [walkRecords, if_neg (Nat.not_lt.mpr before)]
  simp only [read, written, valid, state]
  rfl

end

/-! ### The end of the walk (R144) -/

/-- The blank check of a range says that every byte of it reads FFh. -/
theorem Memory.blankIn_range_iff {m : Memory} (canonical : m.wf = true) (a b : Nat) :
    m.blankIn a b = true ↔ ∀ i, a ≤ i → i < b → m.read i = 0xFF#8 := by
  obtain ⟨fill, cells⟩ := m
  unfold Memory.wf at canonical
  rw [Bool.and_eq_true] at canonical
  obtain ⟨rising, full⟩ := canonical
  unfold Memory.blankIn
  cases fill with
  | undef key =>
    simp only [List.all_eq_true, List.mem_range, beq_iff_eq]
    constructor
    · intro blank i le lt
      have here := blank (i - a) (Nat.sub_lt_sub_right le lt)
      rwa [Nat.add_sub_cancel' le] at here
    · intro blank i lt
      exact blank (a + i) (Nat.le_add_right a i) (Nat.add_lt_of_lt_sub' lt)
  | blank =>
    simp only [bne_self_eq_false, Bool.false_or, List.all_eq_true, bne_iff_ne] at full
    simp only [List.all_eq_true, Bool.or_eq_true, decide_eq_true_eq]
    constructor
    · intro outside i le lt
      cases listed : lookupKey i cells with
      | none => simp only [Memory.read, listed, Option.getD_none, Fill.byte]
      | some v => exact ((outside _ (lookupKey_mem listed)).elim (Nat.not_lt.mpr le) (Nat.not_le.mpr lt)).elim
    · intro blank cell member
      by_contra inside
      rw [not_or, Nat.not_lt, Nat.not_le] at inside
      have read := blank cell.1 inside.1 inside.2
      rw [Memory.read, lookupKey_of_mem rising member, Option.getD_some] at read
      exact full cell member read

theorem Memory.allBlank_readRange {m : Memory} {a n : Nat} 
    (blank : ∀ i, a ≤ i → i < a + n → m.read i = 0xFF#8) : allBlank (m.readRange a n) = true := by
  refine List.all_eq_true.mpr fun b member => ?_
  obtain ⟨i, inside, rfl⟩ := List.mem_map.mp member
  exact beq_iff_eq.mpr (blank (a + i) (Nat.le_add_right a i) (Nat.add_lt_add_left (List.mem_range.mp inside) a))

section
variable {m : Memory} {at_ : Nat} (x : Fin 64) (fuel live dead : Nat) (w : ScanWork)

/-- Without a header to read, or at a blank one, the walk ends whatever its fuel. -/
theorem walkRecords_ends (blank : at_ ≤ 32704 → allBlank (m.readRange at_ 64) = true) :
    walkRecords m x fuel at_ live dead w = endWalk m at_ live dead w := by
  cases fuel with
  | zero => rfl
  | succ n =>
    rw [walkRecords]
    split
    next => rfl
    next before => exact if_pos (blank (Nat.not_lt.mp before))

variable (canonical : m.wf = true)
include canonical

theorem endWalk_blank (blank : ∀ a, at_ ≤ a → a < 32768 → m.read a = 0xFF#8) :
    endWalk m at_ live dead w = (w, ⟨at_, none, live, dead⟩) :=
  if_pos ((Memory.blankIn_range_iff canonical _ _).mpr blank)

theorem endWalk_written (written : ∃ a, at_ ≤ a ∧ a < 32768 ∧ m.read a ≠ 0xFF#8) :
    endWalk m at_ live dead w = ({ w with damage := true }, ⟨at_, some at_, live, dead + (32768 - at_)⟩) := by
  obtain ⟨a, le, lt, differs⟩ := written
  exact if_neg fun blank => differs ((Memory.blankIn_range_iff canonical _ _).mp blank a le lt)

end

/-- Settles O60: header and end marker are read back as programmed, and the walk takes the branch of the state. -/
theorem scanFindsTheRecordsCommitted : Obligations.ScanFindsTheRecordsCommitted := by
  refine ⟨fun m x fuel at_ live dead w c n p mark => ?_, fun m x fuel at_ live dead w canonical => ⟨fun blank => ?_,
    fun blank written => ?_⟩⟩
  · intro size seen
    have sized : (c.recordImage n p.serial (80 + n.budget)).length = size := rfl
    clear_value size
    rintro rfl aligned inside notNone notLast above rfl rfl few stored
    have small : 80 + n.budget < 65536 := by omega
    have before : p.offset ≤ 32704 := by omega
    have header := readRange_header stored (by omega)
    have written := allBlank_recordHeader mark n p.serial (80 + n.budget)
    have valid := headerValid_recordHeader mark n p.serial (80 + n.budget) notNone notLast aligned
      (Nat.le_add_right 80 _) inside above
    have length := headerSize_recordHeader mark n p.serial small
    have state : recordStateCode (byteAt (recordHeader mark n p.serial (80 + n.budget)) stateOffset)
        = recordStateCode mark := congrArg recordStateCode (stateByte_recordHeader ..)
    have serial := headerSerial_recordHeader mark n p.serial (80 + n.budget)
    refine ⟨?_, ?_, ?_⟩
    · rintro rfl
      obtain ⟨crc, marker⟩ := readRange_marker stored sized (by omega)
      have good : markerGood (m.readRange (p.offset + (80 + n.budget) - 16) 16) p.serial (80 + n.budget) = true := by
        rw [marker, markerGood_endMarker]
      rw [walkRecords_complete p.sector fuel live dead before header written valid
        (state.trans recordStateCode_complete) (by rw [length, serial, good]), length, serial,
        foundEntry_recordHeader _ _ _ p small few]
    · rintro rfl
      rw [walkRecords_discarded p.sector fuel live dead before header written valid
        (state.trans recordStateCode_discarded), length, serial]
    · rintro rfl
      rw [walkRecords_begun p.sector fuel live dead before header written valid
        (state.trans recordStateCode_begun), serial]
      rfl
  · rw [walkRecords_ends x fuel live dead w fun before => Memory.allBlank_readRange fun a le lt =>
      blank a le (by omega)]
    exact endWalk_blank live dead w canonical blank
  · rw [walkRecords_ends x fuel live dead w fun _ => Memory.allBlank_readRange blank]
    exact endWalk_written live dead w canonical written

end Sys2Proof.Machine
end

section
/-! PROOFS. Request payloads read back by the handler's decoder (R179, R188, R189). -/

namespace Sys2Proof.Machine

open Sys2Proof.Laws.Payload (encLE_length entryDef_length)

/-! ### Fields read at their places (R189) -/

theorem decLE_encLE_append {k : Nat} (x : BitVec (8 * k)) (rest : List Byte) : decLE k (encLE k x ++ rest) = x :=
  decLE_of_take (List.take_left' (encLE_length k x))

theorem decLE_encLE {k : Nat} (x : BitVec (8 * k)) : decLE k (encLE k x) = x :=
  decLE_of_take (List.take_of_length_le (Nat.le_of_eq (encLE_length k x)))

theorem drop_append_past {a b : List Byte} {i : Nat} (past : a.length ≤ i) :
    (a ++ b).drop i = b.drop (i - a.length) := by
  rw [List.drop_append, List.drop_eq_nil_of_le past, List.nil_append]

theorem byteAt_append_past {a b : List Byte} {i : Nat} (past : a.length ≤ i) :
    byteAt (a ++ b) i = byteAt b (i - a.length) := List.getD_append_right _ _ _ _ past

theorem byteAt_cons_zero (b : Byte) (rest : List Byte) : byteAt (b :: rest) 0 = b := rfl

theorem byteAt_cons_succ (b : Byte) (rest : List Byte) (i : Nat) : byteAt (b :: rest) (i + 1) = byteAt rest i := rfl

/-! ### Argument blocks of CONFIGURE_LINE and WRITE_ENTRY (R22, R66) -/

theorem LineArg.parse_bytes (c : LineArg) : LineArg.parse c.bytes = c := by
  have divisor : decLE 2 c.bytes = c.divisor := decLE_of_take rfl
  have maxLength : decLE 2 (c.bytes.drop 13) = c.maxLength := decLE_of_take rfl
  unfold LineArg.parse
  rw [divisor, maxLength]
  rfl

/-- Behind the fields before it, each field of an entry definition is read as it was written. -/
theorem EntryDef.parse_bytes (e : EntryDef) : EntryDef.parse e.bytes = e := by
  have digest : e.digest.extractLsb' 8 8 ++ e.digest.extractLsb' 0 8 = e.digest := crcBytes_joined e.digest
  simp [EntryDef.parse, EntryDef.bytes, crcAt, crcBytes, digest, encLE_length, drop_append_past, decLE_encLE_append,
    decLE_encLE, byteAt_append_past, byteAt_cons_zero, byteAt_cons_succ]

/-! ### Every request row (R188) -/

/-- A row whose payload the decoder takes for no request is UNKNOWN_REQUEST (R179). -/
theorem decodeRequest_unknown {p : List Byte} (unknown : payloadKnown p = false) (pinHigh : Bool) (tag : Byte) :
    decodeRequest pinHigh ⟨tag, p⟩ = .unknownRequest tag p := by
  unfold decodeRequest
  rw [unknown]

/-- WRITE_ENTRY, its definition left unread. -/
theorem decodeRequest_writeEntry {p : List Byte} (known : payloadKnown (0x20#8 :: p) = true) (pinHigh : Bool)
    (tag : Byte) : decodeRequest pinHigh ⟨tag, 0x20#8 :: p⟩
      = .writeEntry tag (byteAt p 0) (EntryDef.parse (p.drop 1)) := by
  unfold decodeRequest
  rw [known]
  rfl

/-- Settles O19: row by row, the code gives the row and each field is read where the payload carries it. -/
theorem requestPayloadsRoundTrip : Obligations.RequestPayloadsRoundTrip := by
  intro i q formed request
  cases i
  case unknownRequest tag p =>
    cases request
    have unknown : payloadKnown p = false := Bool.not_eq_true' _ |>.mp (Bool.and_eq_true_iff.mp formed).2
    exact decodeRequest_unknown unknown true tag
  case setTime tag time =>
    cases request
    exact congrArg (Instr.setTime tag) (decLE_encLE (k := 6) time)
  case setNoticeMask tag kinds lines =>
    cases request
    exact congrArg (Instr.setNoticeMask tag · lines) (decLE_encLE_append (k := 2) kinds [lines])
  case configureLine tag line cfg =>
    cases request
    exact congrArg (Instr.configureLine tag line) (LineArg.parse_bytes cfg)
  case setPoolMark tag mark =>
    cases request
    exact congrArg (Instr.setPoolMark tag) (decLE_encLE (k := 2) mark)
  case writeEntry tag entry body =>
    cases request
    have known : payloadKnown (0x20#8 :: entry :: body.bytes) = true := by
      simp [payloadKnown, argLength, entryDef_length]
    refine (decodeRequest_writeEntry known true tag).trans ?_
    exact congrArg (Instr.writeEntry tag entry) (EntryDef.parse_bytes body)
  case closeIncident tag id =>
    cases request
    exact congrArg (Instr.closeIncident tag) (decLE_encLE (k := 2) id)
  case cancelIncident tag id =>
    cases request
    exact congrArg (Instr.cancelIncident tag) (decLE_encLE (k := 2) id)
  case listFrames tag line list present after max =>
    cases request
    exact congrArg (Instr.listFrames tag line list present · max) (decLE_encLE_append (k := 2) after [max])
  case readFrame tag line seq =>
    cases request
    exact congrArg (Instr.readFrame tag line) (decLE_encLE (k := 2) seq)
  case releaseFrames tag line seq =>
    cases request
    exact congrArg (Instr.releaseFrames tag line) (decLE_encLE (k := 2) seq)
  case listRecords tag first filter max =>
    cases request
    exact congrArg (Instr.listRecords tag · filter max) (decLE_encLE_append (k := 4) first [filter, max])
  case readRecord tag serial first =>
    cases request
    exact congrArg₂ (Instr.readRecord tag) (decLE_encLE_append (k := 4) serial (encLE 2 first))
      (decLE_encLE (k := 2) first)
  case verifyRecord tag serial =>
    cases request
    exact congrArg (Instr.verifyRecord tag) (decLE_encLE (k := 4) serial)
  case discardRecord tag serial =>
    cases request
    exact congrArg (Instr.discardRecord tag) (decLE_encLE (k := 4) serial)
  -- The rows whose arguments are single bytes; events stand for no request.
  all_goals cases request <;> rfl

end Sys2Proof.Machine
end

section
/-! PROOFS. The receive hunter: request envelopes byte by byte, bytes out of time, broken bytes (R172 to R178). -/

namespace Sys2Proof.Machine

/-! ### Bytes in HUNT, HEADER and BODY (R174, R175) -/

section
variable (a : Link)

theorem Link.receive_hunt (hunt : a.hunter = .hunt) (b : Byte) :
    a.receive b = { a with hunter := if b = syncByte then .header [] else .hunt } := by
  unfold Link.receive
  rw [hunt]
  dsimp only
  split
  · rfl
  · rw [← hunt]

theorem Link.receive_header (h : List Byte) (b : Byte) (short : h.length < 3) :
    { a with hunter := .header h }.receive b = { a with hunter := .header (h ++ [b]) } := by
  have within : (h ++ [b]).length < 4 := by
    rw [List.length_append, List.length_singleton]
    exact Nat.succ_lt_succ short
  exact if_pos within

theorem Link.receive_accepted {h : List Byte} {b : Byte} {len : Nat} (whole : h.length = 3)
    (accepted : headerLength (h ++ [b]) = some len) :
    { a with hunter := .header h }.receive b = { a with hunter := .body len (h ++ [b]) } := by
  have ends : ¬ (h ++ [b]).length < 4 := by
    rw [List.length_append, List.length_singleton, whole]
    exact Nat.lt_irrefl 4
  unfold Link.receive
  dsimp only
  rw [if_neg ends, accepted]

theorem Link.receive_body (len : Nat) (f : List Byte) (b : Byte) : { a with hunter := .body len f }.receive b
    = if f.length + 1 < len + 8 then { a with hunter := .body len (f ++ [b]) } else a.wholeFrame len (f ++ [b]) := by
  unfold Link.receive
  dsimp only
  rw [List.length_append, List.length_singleton]
  rfl

/-- The header's bytes before its last one are gathered (R174). -/
theorem Link.foldl_receive_header (bytes h : List Byte) (short : h.length + bytes.length ≤ 3) :
    bytes.foldl Link.receive { a with hunter := .header h } = { a with hunter := .header (h ++ bytes) } := by
  induction bytes generalizing h with
  | nil => rw [List.foldl_nil, List.append_nil]
  | cons b rest ih =>
    rw [List.length_cons] at short
    have joined : (h ++ [b]).length = h.length + 1 := List.length_append
    rw [List.foldl_cons, a.receive_header h b (by omega), ih (h ++ [b]) (by omega), List.append_assoc]
    rfl

/-- SYNC and an accepted header take the hunter into BODY (R174). -/
theorem Link.foldl_receive_accepted (hunt : a.hunter = .hunt) {h : List Byte} {b : Byte} {len : Nat}
    (whole : h.length = 3) (accepted : headerLength (h ++ [b]) = some len) :
    (syncByte :: (h ++ [b])).foldl Link.receive a = { a with hunter := .body len (h ++ [b]) } := by
  have sync : a.receive syncByte = { a with hunter := .header [] } := a.receive_hunt hunt syncByte
  have short : ([] : List Byte).length + h.length ≤ 3 := by rw [List.length_nil, Nat.zero_add, whole]
  rw [List.foldl_cons, sync, List.foldl_append, a.foldl_receive_header h [] short]
  exact a.receive_accepted whole accepted

end

/-- The bytes that complete a frame of LENGTH `len` in BODY (R175). -/
theorem Link.foldl_receive_body (a : Link) {len : Nat} (bytes f : List Byte) (inside : f.length < len + 8)
    (completes : f.length + bytes.length = len + 8) :
    bytes.foldl Link.receive { a with hunter := .body len f } = a.wholeFrame len (f ++ bytes) := by
  induction bytes generalizing f with
  | nil => exact absurd completes (Nat.ne_of_lt inside)
  | cons b rest ih =>
    rw [List.foldl_cons, a.receive_body]
    rw [List.length_cons] at completes
    split
    next more =>
      have joined : (f ++ [b]).length = f.length + 1 := List.length_append
      rw [ih (f ++ [b]) (joined ▸ more) (by omega), List.append_assoc]
      rfl
    next last =>
      obtain rfl : rest = [] := List.eq_nil_of_length_eq_zero (by omega)
      rfl

/-! ### Request envelopes (R173) -/

/-- LENGTH and its complement (R173). -/
def headerBytes (len : Nat) : List Byte := u16 len ++ u16 (len ^^^ 0xFFFF)

/-- What a request envelope's CRC covers: all of it but SYNC and the CRC itself (R173). -/
def requestInner (tag : Byte) (payload : List Byte) : List Byte :=
  headerBytes payload.length ++ [kindRequest, tag] ++ payload

/-- A request envelope after its header (R173). -/
def requestBody (tag : Byte) (payload : List Byte) : List Byte :=
  [kindRequest, tag] ++ payload ++ crcBytes (crc16 (requestInner tag payload))

theorem envelope_request (tag : Byte) (payload : List Byte) : envelope kindRequest tag payload
    = syncByte :: headerBytes payload.length ++ requestBody tag payload := rfl

theorem headerBytes_append_requestBody (tag : Byte) (payload : List Byte) :
    headerBytes payload.length ++ requestBody tag payload
      = requestInner tag payload ++ crcBytes (crc16 (requestInner tag payload)) := rfl

theorem headerBytes_length (len : Nat) : (headerBytes len).length = 4 := rfl

theorem requestBody_length (tag : Byte) (payload : List Byte) :
    (requestBody tag payload).length = payload.length + 4 := by
  simp only [requestBody, crcBytes, List.length_append, List.length_cons, List.length_nil]
  omega

theorem requestInner_length (tag : Byte) (payload : List Byte) :
    (requestInner tag payload).length = 6 + payload.length := Nat.add_comm payload.length 6

/-- LENGTH with its complement is accepted, up to the largest payload (R174). -/
theorem headerLength_accepted {len : Nat} (fits : len ≤ 1200) : headerLength (headerBytes len) = some len := by
  have first : leNat ((headerBytes len).take 2) = len := leNat_u16 (by omega)
  have second : leNat ((headerBytes len).drop 2) = len ^^^ 0xFFFF :=
    leNat_u16 (Nat.xor_lt_two_pow (n := 16) (by omega) (by decide))
  unfold headerLength
  rw [first, second]
  exact if_pos ⟨rfl, fits⟩

theorem crcAt_appended (bytes : List Byte) (c : Half) : crcAt (bytes ++ crcBytes c) bytes.length = c := by
  have high : byteAt (bytes ++ crcBytes c) bytes.length = c.extractLsb' 8 8 := by
    rw [byteAt_append_past (Nat.le_refl _), Nat.sub_self]
    rfl
  have low : byteAt (bytes ++ crcBytes c) (bytes.length + 1) = c.extractLsb' 0 8 := by
    rw [byteAt_append_past (Nat.le_add_right _ 1), Nat.add_sub_cancel_left]
    rfl
  unfold crcAt
  rw [high, low]
  exact crcBytes_joined c

/-- A whole request frame whose CRC agrees offers its request (R175, R178). -/
theorem Link.wholeFrame_request (a : Link) (tag : Byte) (payload : List Byte) :
    a.wholeFrame payload.length (requestInner tag payload ++ crcBytes (crc16 (requestInner tag payload)))
      = { a with hunter := .hunt }.offer ⟨tag, payload⟩ := by
  have size := requestInner_length tag payload
  have covered (rest : List Byte) :
      (requestInner tag payload ++ rest).take (6 + payload.length) = requestInner tag payload := List.take_left' size
  have crc (c : Half) : crcAt (requestInner tag payload ++ crcBytes c) (6 + payload.length) = c := by
    rw [← size]
    exact crcAt_appended _ c
  have kind (rest : List Byte) : byteAt (requestInner tag payload ++ rest) 4 = kindRequest := rfl
  have tagByte (rest : List Byte) : byteAt (requestInner tag payload ++ rest) 5 = tag := rfl
  have afterTag (rest : List Byte) : (requestInner tag payload ++ rest).drop 6 = payload ++ rest := rfl
  unfold Link.wholeFrame
  dsimp only
  rw [crc, covered, kind, tagByte, afterTag, List.take_left, if_neg (not_not_intro rfl), if_pos rfl]

/-- Settles O16: the header takes the hunter into BODY, the other bytes complete the frame, and its CRC agrees. -/
theorem requestEnvelopeIsOffered : Obligations.RequestEnvelopeIsOffered := by
  intro l tag payload hunt fits
  have gathered : ((headerBytes payload.length).take 3).length = 3 := rfl
  have header : (syncByte :: headerBytes payload.length).foldl Link.receive l
      = { l with hunter := .body payload.length (headerBytes payload.length) } :=
    l.foldl_receive_accepted hunt gathered (headerLength_accepted fits)
  have size := requestBody_length tag payload
  have four := headerBytes_length payload.length
  have body := l.foldl_receive_body (len := payload.length) (requestBody tag payload) (headerBytes payload.length)
    (by omega) (by omega)
  have kept : { l with hunter := .hunt } = l := by rw [← hunt]
  calc (envelope kindRequest tag payload).foldl Link.receive l
    _ = (requestBody tag payload).foldl Link.receive
          { l with hunter := .body payload.length (headerBytes payload.length) } := by
      rw [envelope_request, List.foldl_append, header]
    _ = { l with hunter := .hunt }.offer ⟨tag, payload⟩ := by
      rw [body, headerBytes_append_requestBody, l.wholeFrame_request]
    _ = l.offer ⟨tag, payload⟩ := by rw [kept]

/-! ### Bytes out of time, broken bytes, INTER_BYTE_TIMEOUT (R176) -/

theorem Link.receiveBroken_hunt {a : Link} (hunt : a.hunter = .hunt) : a.receiveBroken = a := by
  unfold Link.receiveBroken
  rw [hunt]

theorem Link.receiveBroken_inside {a : Link} (inside : a.hunter ≠ .hunt) : a.receiveBroken = { a with
    hunter := .hunt, counters := { a.counters with badEnvelope := saturate a.counters.badEnvelope } } := by
  unfold Link.receiveBroken
  cases hunter : a.hunter with
  | hunt => exact absurd hunter inside
  | header h => rfl
  | body len f => rfl

section
variable {s : State}

theorem exec_hostByteReceived (same : s.link.expireBefore s.time.elapsed = s.link) (b : Byte) :
    exec (.hostByteReceived (some b)) s
      = .next { s with link := { s.link with lastByteAt := s.time.elapsed }.receive b } := by
  change execHostByteReceived (some b) s = _
  unfold execHostByteReceived
  rw [same]

theorem exec_brokenByte (same : s.link.expireBefore s.time.elapsed = s.link) :
    exec (.hostByteReceived none) s = .next { s with link := s.link.receiveBroken } := by
  change execHostByteReceived none s = _
  unfold execHostByteReceived
  rw [same]

/-- A byte that finds the inter-byte timeout expired is taken as the expired link takes it. -/
theorem exec_hostByteReceived_late (inside : s.link.hunter ≠ .hunt)
    (late : 1000 < microsSince s.time.elapsed s.link.lastByteAt) (byte : Option Byte) :
    exec (.hostByteReceived byte) s = exec (.hostByteReceived byte) { s with link := s.link.expire } := by
  have expired := s.link.expireBefore_late s.time.elapsed inside late
  have settled := s.link.expire.expireBefore_in_time s.time.elapsed (.inl rfl)
  change execHostByteReceived byte s = execHostByteReceived byte { s with link := s.link.expire }
  unfold execHostByteReceived
  rw [expired, settled]

theorem exec_interByteTimeout (inside : s.link.hunter ≠ .hunt) :
    exec .interByteTimeout s = .next { s.advanceTo (s.link.lastByteAt + 1000) with link := s.link.expire } := by
  change execInterByteTimeout s = _
  unfold execInterByteTimeout
  cases hunter : s.link.hunter with
  | hunt => exact absurd hunter inside
  | header h => rfl
  | body len f => rfl

end

/-- Settles O17: in HUNT and in time no timeout comes first, later one does. -/
theorem huntTakesOnlySyncAndTimeoutsDropFrames : Obligations.HuntTakesOnlySyncAndTimeoutsDropFrames := by
  refine ⟨fun s b hunt => ?_, fun s b inside soon => ?_, fun s byte inside late => ?_, fun s inside => ?_⟩
  · have same := s.link.expireBefore_in_time s.time.elapsed (.inl hunt)
    refine ⟨(exec_hostByteReceived same b).trans ?_, (exec_brokenByte same).trans ?_⟩
    · rw [Link.receive_hunt { s.link with lastByteAt := s.time.elapsed } hunt]
      rfl
    · rw [Link.receiveBroken_hunt hunt]
  · have same := s.link.expireBefore_in_time s.time.elapsed (.inr soon)
    refine ⟨exec_hostByteReceived same b, (exec_brokenByte same).trans ?_⟩
    rw [Link.receiveBroken_inside inside]
    rfl
  · exact exec_hostByteReceived_late inside late byte
  · exact ⟨_, exec_interByteTimeout inside, rfl, rfl, rfl⟩

end Sys2Proof.Machine
end

section
/-! PROOFS. Notices masked, joined, lost and sent, and the answer to RESTART (R180 to R185, R196, R199). -/

namespace Sys2Proof.Machine

/-! ### What the masks let pass (R196) -/

/-- Of the two kinds that are always let pass it is neither. -/
theorem Notice.unforced {n : Notice} {k : Nat} (kind : n.kind = k) (one : k ≠ 1) (fourteen : k ≠ 14) {p : Prop} :
    n.kind = 1 ∨ n.kind = 14 ∨ p ↔ p := by
  rw [kind, or_iff_right one, or_iff_right fourteen]

/-- A notice passes exactly when it is always let pass, or its kind is in the kind mask and its line, where the masks
look at one, in the line mask. -/
theorem Link.passes_iff (a : Link) (n : Notice) : a.passes n = true ↔
    (n.kind = 1 ∨ n.kind = 14 ∨ (a.kindMask.getLsbD n.kind = true
      ∧ (∀ i new old att, n = .lineState i new old att → a.lineMask.getLsbD i.val = true)
      ∧ ∀ i q h d v, n = .feedReady i q h d v → a.lineMask.getLsbD i.val = true)) := by
  cases n
  case lineState i new old att =>
    rw [Notice.unforced (k := 2) rfl (by decide) (by decide)]
    refine Bool.and_eq_true_iff.trans (and_congr_right fun _ => ⟨fun line => ⟨?_, ?_⟩, fun lines => ?_⟩)
    · rintro _ _ _ _ ⟨⟩
      exact line
    · rintro _ _ _ _ _ ⟨⟩
    · exact lines.1 i new old att rfl
  case feedReady i q h d v =>
    rw [Notice.unforced (k := 13) rfl (by decide) (by decide)]
    refine Bool.and_eq_true_iff.trans (and_congr_right fun _ => ⟨fun line => ⟨?_, ?_⟩, fun lines => ?_⟩)
    · rintro _ _ _ _ ⟨⟩
    · rintro _ _ _ _ _ ⟨⟩
      exact line
    · exact lines.2 i q h d v rfl
  all_goals simp [Link.passes, Notice.kind, inSet]

/-- A notice that finds the queue full is lost (R183). -/
theorem Link.notify_lost (a : Link) (tod : Stamp) (n : Notice) (passes : a.passes n = true)
    (full : 16 ≤ a.notices.length) : a.notify tod n = { a with lost := a.lost.add tod n } := by
  unfold Link.notify
  rw [if_pos passes]
  exact if_neg (Nat.not_lt.mpr full)

/-! ### The idle transmitter begins the next frame (R181, R183, R184) -/

section
variable {a : Link} (idle : a.tx = none) (tod : Stamp)
include idle

theorem Link.begin_reply {r : Reply} (slot : a.slot = some r) : a.begin tod = Link.takeNext { a with
    tx := some (.reply r), slot := none,
    handler := if a.handler = .replyHeld then .idle else a.handler } := by
  unfold Link.begin
  rw [idle, slot]

theorem Link.begin_notice {n : QueuedNotice} {rest : List QueuedNotice} (slot : a.slot = none)
    (queue : a.notices = n :: rest) :
    a.begin tod = { a with tx := some (.notice n), notices := rest }.reportLost tod := by
  unfold Link.begin
  rw [idle, slot, queue]

/-- The head notice leaves the queue, and no notice was lost. -/
theorem Link.begin_notice_unlost {n : QueuedNotice} {rest : List QueuedNotice} (slot : a.slot = none)
    (queue : a.notices = n :: rest) (unlost : a.lost.count = 0) :
    a.begin tod = { a with tx := some (.notice n), notices := rest } :=
  (Link.begin_notice idle tod slot queue).trans (if_pos unlost)

/-- The head notice leaves the queue, and the notices lost are reported in its place (R183). -/
theorem Link.begin_notice_lost {n : QueuedNotice} {rest : List QueuedNotice} (slot : a.slot = none)
    (queue : a.notices = n :: rest) (lost : a.lost.count ≠ 0) :
    a.begin tod = { a with tx := some (.notice n), notices := rest, lost := .zero }.join tod
      (.noticesLost a.lost.count a.lost.kinds a.lost.first) :=
  (Link.begin_notice idle tod slot queue).trans (if_neg lost)

theorem Link.begin_nothing (slot : a.slot = none) (queue : a.notices = []) : a.begin tod = a := by
  unfold Link.begin
  rw [idle, slot, queue]

end

theorem Link.takeNext_notices (a : Link) : a.takeNext.notices = a.notices := by
  rw [a.takeNext_quiet]

/-- The transmitter at the end of its frame. -/
def Link.sent (a : Link) : Link := { a with tx := none }

/-- The end of a frame that is not the RESTART reply (R184). -/
theorem exec_txFrameEnd {s : State} (other : s.link.restartSending = false) (sending : s.link.tx ≠ none) :
    exec .txFrameEnd s = .next { s with link := s.link.sent.begin s.time.tod } := by
  change execTxFrameEnd s = _
  unfold execTxFrameEnd
  rw [other, if_neg Bool.false_ne_true, if_neg sending]
  rfl

/-- Settles O18: the masks kind by kind; the queue with room and without; the slot, else the head notice, else idle. -/
theorem noticesAreMaskedJoinedLostAndSent : Obligations.NoticesAreMaskedJoinedLostAndSent := by
  refine ⟨Link.passes_iff,
    fun l tod n busy => ⟨l.notify_masked tod n, l.notify_joins tod n busy, l.notify_lost tod n⟩,
    fun s other sending => ⟨_, exec_txFrameEnd other sending, rfl, fun r slot => ?_, fun n rest slot queue => ?_,
      fun slot queue => ?_⟩⟩
  · rw [Link.begin_reply (a := s.link.sent) rfl s.time.tod slot]
    exact ⟨Link.takeNext_tx _, Link.takeNext_slot _, Link.takeNext_notices _⟩
  · obtain unlost | lost := eq_or_ne s.link.lost.count 0
    · rw [Link.begin_notice_unlost (a := s.link.sent) rfl s.time.tod slot queue unlost]
      exact ⟨rfl, fun _ => ⟨rfl, rfl⟩, fun lost => absurd unlost lost⟩
    · rw [Link.begin_notice_lost (a := s.link.sent) rfl s.time.tod slot queue lost]
      exact ⟨rfl, fun unlost => absurd unlost lost, fun _ => ⟨rfl, rfl, rfl⟩⟩
  · exact Link.begin_nothing (a := s.link.sent) rfl s.time.tod slot queue

/-! ### RESTART (R185, R199) -/

/-- A HALTED handler takes no request (R185). -/
theorem Link.takeNext_halted {a : Link} (halted : a.handler = .halted) : a.takeNext = a := by
  unfold Link.takeNext
  rw [halted]

theorem Link.sendReserved_halts (a : Link) (r : Reply) :
    a.reserve.sendReserved r true = { a with tx := some (.reply r), handler := .halted } := Link.takeNext_halted rfl

theorem Link.place_halts (a : Link) (tod : Stamp) (r : Reply) (idle : a.tx = none) :
    a.place tod r true = { a with slot := none, tx := some (.reply r), handler := .halted } := by
  unfold Link.place
  rw [Link.begin_reply (a := { a with slot := some r, handler := heldHandler true }) idle tod rfl]
  exact Link.takeNext_halted rfl

/-- Settles O25: the transmitter taken for the reply, idle, or sending. -/
theorem restartHaltsTheHandler : Obligations.RestartHaltsTheHandler := by
  intro tag s executing
  have run : exec (.restart tag) s = .next (s.answer (reqOf (.restart tag)) true fun u => (u, .ok [])) := by
    change execRestart tag s = _
    unfold execRestart State.request
    exact congrArg Host.Outcome.next (if_pos executing)
  refine ⟨_, run, ?_⟩
  unfold State.answer
  split
  next idle =>
    dsimp only
    rw [Link.sendReserved_halts, if_pos idle.1]
    exact ⟨rfl, rfl, rfl, rfl, rfl⟩
  next =>
    dsimp only
    by_cases idle : s.link.tx = none
    · rw [s.link.place_halts _ _ idle, if_pos idle]
      exact ⟨rfl, rfl, rfl, rfl, rfl⟩
    · rw [s.link.place_busy _ _ _ idle, if_neg idle]
      exact ⟨rfl, rfl, rfl, rfl, rfl, rfl⟩

end Sys2Proof.Machine
end

section
/-! PROOFS. The passing of time (R61, R191, R192), and the requests of time, status and notice masks (R193 to R195,
R197, R198). -/

namespace Sys2Proof.Machine

/-! ### The step of an empty queue (R61, R191, R192) -/

theorem step_empty {s : State} (empty : s.pending = []) : step s = .next s.idleTick := by
  unfold step
  rw [empty]

/-- What the passing of time changes: the clocks, the queue and the free-value counter. -/
theorem State.idleTick_eq (s : State) : s.idleTick = { s with
    time := s.time.tick, pending := { s with time := s.time.tick }.due, freeKey := s.freeKey + 1 } := rfl

theorem State.holdoffDue_iff (s : State) (e : Fin 16) :
    s.holdoffDue e = true ↔ ∃ p, s.matcher.entries[e].holdoffEnd = some p ∧ reached s.time.elapsed p = true :=
  Option.any_eq_true _ _

/-- The time limit of the array operation is no holdoff's expiry. -/
theorem State.holdoffExpiry_notMem_arrayDue (s : State) (e : Fin 16) : Instr.holdoffExpiry e ∉ s.arrayDue := by
  unfold State.arrayDue
  split
  next => split <;> simp
  next => split <;> simp
  next => exact List.not_mem_nil

theorem State.holdoffExpiry_mem_due (s : State) (e : Fin 16) :
    Instr.holdoffExpiry e ∈ s.due ↔ s.holdoffDue e = true := by
  have own : Instr.holdoffExpiry e ∈ (allEntries.filter s.holdoffDue).map .holdoffExpiry ↔ s.holdoffDue e = true := by
    rw [List.mem_map_of_injective fun _ _ => Instr.holdoffExpiry.inj, List.mem_filter]
    exact and_iff_right (List.mem_finRange e)
  have idle : Instr.holdoffExpiry e ∉ (allLines.filter s.idleDue).map .idleTimerExpiry := by simp
  have post : Instr.holdoffExpiry e ∉ (allSlots.filter s.postDue).map .postTimerExpiry := by simp
  have link : Instr.holdoffExpiry e ∉ if s.interByteDue then [Instr.interByteTimeout] else [] := by split <;> simp
  unfold State.due
  simp only [List.mem_append, own, idle, post, link, s.holdoffExpiry_notMem_arrayDue e, false_or, or_false]

/-- Settles O2: the tick, and the holdoffs among the expiries that are due after it. -/
theorem emptyQueueStepIsOneMicrosecond : Obligations.EmptyQueueStepIsOneMicrosecond := by
  intro s empty
  refine ⟨s.idleTick, step_empty empty, s.idleTick_eq, fun e => ?_⟩
  let ticked : State := { s with time := s.time.tick }
  exact (ticked.holdoffExpiry_mem_due e).trans (ticked.holdoffDue_iff e)

/-! ### Requests that report the state, the link included -/

/-- A body finds the state of the event but for transmitter and free-value counter. -/
theorem State.BodyState.eq_relinked {s u : State} (h : State.BodyState s u) :
    ∃ tx, u = s.relinked { s.link with tx := tx } (s.freeKey + 1) := by
  obtain ⟨outside, link | link⟩ := h
  · exact ⟨s.link.tx, by rw [outside, link]; rfl⟩
  · exact ⟨_, by rw [outside, link]; rfl⟩

/-- A request row that answers a reading of the state changes nothing, and the reading is that of the event's own state
when it looks at neither transmitter nor free-value counter. -/
theorem State.serve_reports (s : State) (row : Instr) (reading : State → List Byte)
    (he : exec row s = .next (s.serve row fun u => (u, .ok (reading u)))) (h : s.Executing row)
    (own : ∀ tx k, reading (s.relinked { s.link with tx := tx } k) = reading s) :
    Completes row s fun t => s.OnlyLink t ∧ s.Answered t row .ok (reading s) := by
  rw [s.serve_in_hand row _ h] at he
  obtain ⟨u, given, only, answered⟩ := s.answer_spec row (fun u => (u, .ok (reading u))) fun _ => rfl
  obtain ⟨tx, rfl⟩ := given.eq_relinked
  rw [replyTo_ok, own] at answered
  refine ⟨_, he, ?_, answered⟩
  unfold State.OnlyLink
  rw [only]
  rfl

/-! ### IDENTIFY and GET_STATUS (R194, R195) -/

theorem ResetCause.code_eq (c : ResetCause) : c.code = if c = .hardReset then 0 else 1 := by
  cases c <;> rfl

/-- A field of fewer than eight bits as a byte (R189). -/
theorem u8_toNat {w : Nat} (x : BitVec w) : u8 x.toNat = [x.setWidth 8] := by
  rw [← BitVec.ofNat_toNat]
  rfl

theorem State.identity_eq (s : State) : s.identity
    = [0x2A, 0x03, 1, s.link.straps.setWidth 8, 8, 0x00, 0x04, 64, 16, 4, 64, 0x00, 0x80, 0x00, 0x04, 8, 0xB0, 0x04,
        if s.time.cause = .hardReset then 0 else 1] := by
  unfold State.identity
  rw [u8_toNat, ResetCause.code_eq]
  rfl

/-- While SCANNING, index entries and next serial are six zeros. -/
theorem State.storePart_eq (s : State) : s.storePart
    = [s.store.state.code, s.store.faults.code, fullCode s.records.full]
      ++ if s.store.state = .scanning then [0, 0, 0, 0, 0, 0]
        else u16 s.records.index.length ++ encLE 4 s.records.nextSerial := by
  unfold State.storePart
  by_cases scanning : s.store.state = .scanning
  · simp only [scanning, beq_self_eq_true, if_true]
    rfl
  · rw [if_neg scanning, beq_false_of_ne scanning, List.append_assoc]
    rfl

/-- Settles O21: the two readings, and their data field by field. -/
theorem identifyAndGetStatusReportThePart : Obligations.IdentifyAndGetStatusReportThePart := by
  refine ⟨fun tag s h => ?_, fun tag s h => ?_⟩
  · have reported := s.serve_reports (.identify tag) State.identity rfl h fun _ _ => rfl
    rw [s.identity_eq] at reported
    exact reported
  · have reported := s.serve_reports (.getStatus tag) State.status rfl h fun _ _ => rfl
    unfold State.status Incidents.status Link.status at reported
    rw [s.storePart_eq] at reported
    simp only [List.append_assoc] at reported ⊢
    exact reported

/-! ### SET_TIME and CLEAR_FAULTS (R193, R198) -/

/-- Settles O22: the body sets the time of day, whatever the link. -/
theorem setTimeMovesTheTimeOfDayAlone : Obligations.SetTimeMovesTheTimeOfDayAlone := fun tag time s h =>
  s.serve_changes { s with time := { s.time with tod := time } } (.setTime tag time) (setTimeBody time) _ rfl h
    fun _ _ => rfl

/-- Settles O24: the body clears the faults, whatever the link. -/
theorem clearFaultsClearsTheThreeFaults : Obligations.ClearFaultsClearsTheThreeFaults := fun tag s h =>
  s.serve_changes { s with store := { s.store with faults := noFaults } } (.clearFaults tag) clearFaultsBody _ rfl h
    fun _ _ => rfl

/-! ### SET_NOTICE_MASK (R197) -/

/-- The state with other notice masks. -/
def State.masked (s : State) (kinds : Half) (lines : Byte) : State :=
  { s with link := { s.link with kindMask := kinds, lineMask := lines } }

theorem setNoticeMaskBody_refused {kinds : Half} (fixed : kinds.getLsbD 0 = true ∨ kinds.getLsbD 15 = true)
    (lines : Byte) (s : State) : setNoticeMaskBody kinds lines s = (s, .bare .badArgument) :=
  if_pos (Bool.or_eq_true_iff.mpr fixed)

theorem setNoticeMaskBody_ok {kinds : Half} (free : ¬(kinds.getLsbD 0 = true ∨ kinds.getLsbD 15 = true))
    (lines : Byte) (s : State) : setNoticeMaskBody kinds lines s
      = (s.masked (kinds ||| 0x4002#16) lines, .ok (encLE 2 (kinds ||| 0x4002#16) ++ [lines])) :=
  if_neg (mt Bool.or_eq_true_iff.mp free)

/-- An execution that replaces the masks is one that changes nothing, on the state with the masks replaced: a placed
reply does not read them. -/
theorem State.answer_masked (s : State) (q : Req) (kinds : Half) (lines : Byte) (a : Answer) :
    s.answer q false (fun u => (u.masked kinds lines, a)) = (s.masked kinds lines).answer q false fun u => (u, a) := rfl

/-- Settles O23: the refusal, and the masks replaced before the reply is placed. -/
theorem setNoticeMaskReplacesBothMasks : Obligations.SetNoticeMaskReplacesBothMasks := by
  intro tag kinds lines s h
  by_cases fixed : kinds.getLsbD 0 = true ∨ kinds.getLsbD 15 = true
  · simp only [if_pos fixed]
    exact s.serve_refuses _ _ _ rfl h fun l k => setNoticeMaskBody_refused fixed lines (s.relinked l k)
  · simp only [if_neg fixed]
    have run : exec (.setNoticeMask tag kinds lines) s
        = .next (s.serve (.setNoticeMask tag kinds lines) (setNoticeMaskBody kinds lines)) := rfl
    rw [s.serve_in_hand _ _ h, funext (setNoticeMaskBody_ok fixed lines), s.answer_masked] at run
    obtain ⟨only, answered⟩ := (s.masked (kinds ||| 0x4002#16) lines).answer_unchanged
      (.setNoticeMask tag kinds lines) (fun u => (u, .ok (encLE 2 (kinds ||| 0x4002#16) ++ [lines]))) _ fun _ _ => rfl
    exact ⟨_, run, only, answered⟩

end Sys2Proof.Machine
end

section
/-! PROOFS. No command touches the queue of waiting commands, every command answers, and every run goes on (log 31). -/

namespace Sys2Proof.Machine

/-! ### Notices, pool pressure and the end of an event -/

theorem State.SameOutsideStore.pending {s t : State} (h : s.SameOutsideStore t) : t.pending = s.pending := by
  obtain ⟨-, -, -, -, -, same⟩ := h
  exact same

@[simp] theorem State.notifyAll_pending (s : State) (ns : List Notice) : (s.notifyAll ns).pending = s.pending := by
  rw [State.notifyAll_only]

@[simp] theorem State.evalPressure_pending (old s : State) : (State.evalPressure old s).pending = s.pending := by
  rw [State.evalPressure_eq, State.setPressure_only]

@[simp] theorem State.setPressure_pending (s : State) (on : Bool) : (s.setPressure on).pending = s.pending := by
  rw [State.setPressure_only]

@[simp] theorem State.announce_pending (old s : State) : (State.announce old s).pending = s.pending := by
  rw [State.announce_only]

@[simp] theorem State.conclude_pending (old s : State) : (State.conclude old s).pending = s.pending := by
  rw [State.conclude_only]

@[simp] theorem State.arbitrate_pending (s : State) : s.arbitrate.pending = s.pending := s.arbitrate_same.pending

@[simp] theorem State.settleEvent_pending (old s : State) : (State.settleEvent old s).pending = s.pending :=
  (State.arbitrate_pending _).trans (State.conclude_pending old s)

/-! ### Claims, incidents and classifications -/

@[simp] theorem State.keepRing_pending (s : State) (i : Fin 8) (id : Nat) : (s.keepRing i id).pending = s.pending := by
  unfold State.keepRing
  split
  · split <;> rfl
  · rfl

@[simp] theorem State.keepFeed_pending (s : State) (i : Fin 8) (id : Nat) : (s.keepFeed i id).pending = s.pending := by
  unfold State.keepFeed
  split
  · dsimp only
    split <;> rfl
  · split
    · split <;> rfl
    · rfl

@[simp] theorem State.keepClaim_pending (s : State) (i : Fin 8) (id : Nat) :
    (s.keepClaim i id).pending = s.pending := by
  unfold State.keepClaim
  split
  · exact s.keepRing_pending i id
  · exact s.keepFeed_pending i id

@[simp] theorem State.closeIncident_pending (s : State) (k : Fin 4) (r : CloseReason) :
    (s.closeIncident k r).pending = s.pending := by
  unfold State.closeIncident
  split <;> rfl

theorem State.openIncident_pending {s t : State} {r : OpenRequest} (opened : s.openIncident r = some t) :
    t.pending = s.pending := by
  unfold State.openIncident at opened
  split at opened
  next => exact (Option.some_ne_none t opened.symm).elim
  next =>
    rw [← Option.some.inj opened]
    dsimp only
    split
    · exact State.closeIncident_pending _ _ _
    · rfl

@[simp] theorem State.offerFrame_pending (s : State) (id : Nat) (line : Fin 8) (k : Fin 4) :
    (s.offerFrame id line k).pending = s.pending := by
  unfold State.offerFrame
  split
  · rfl
  · split
    · split
      · exact s.closeIncident_pending k .full
      · dsimp only
        split
        · exact State.closeIncident_pending _ k .count
        · rfl
    · rfl

@[simp] theorem State.arrive_pending (s : State) (id : Nat) (line : Fin 8) : (s.arrive id line).pending = s.pending :=
  List.foldlRecOn (motive := fun t : State => t.pending = s.pending) _ _ rfl
    fun t same k _ => (t.offerFrame_pending id line k).trans same

@[simp] theorem State.abandon_pending (s : State) (k : Fin 4) (r : AbandonReason) :
    (s.abandon k r).pending = s.pending := by
  unfold State.abandon
  split <;> rfl

@[simp] theorem State.putRequest_pending (s : State) (r : OpenRequest) : (s.putRequest r).1.pending = s.pending := by
  unfold State.putRequest
  split
  next t opened => exact (State.openIncident_pending opened : t.pending = s.pending)
  next => rfl

@[simp] theorem State.fire_pending (s : State) (request : Fin 16 → OpenRequest) (es : List (Fin 16)) :
    (s.fire request es).1.pending = s.pending :=
  List.foldlRecOn (motive := fun q : State × Bool => q.1.pending = s.pending) _ _ rfl
    fun q same e _ => (q.1.putRequest_pending (request e)).trans same

@[simp] theorem State.classifyFrame_pending (s : State) (i : Fin 8) (id : Nat) (f : Frame) :
    (s.classifyFrame i id f).pending = s.pending := by
  unfold State.classifyFrame
  dsimp only
  split
  · rw [State.dropClaim_pending, State.fire_pending]
  · rw [State.keepClaim_pending, State.arrive_pending, State.fire_pending]

@[simp] theorem State.classify_pending (s : State) (i : Fin 8) : (s.classify i).pending = s.pending := by
  unfold State.classify
  split
  · rfl
  · split
    · rfl
    · rw [State.settleEvent_pending, State.modLine_pending, State.classifyFrame_pending, State.modLine_pending]

/-! ### Characters and the idle timer -/

@[simp] theorem State.endFrame_pending (s : State) (i : Fin 8) (cur : CurrentFrame) (last : Stamp) (cut broken : Bool) :
    (s.endFrame i cur last cut broken).pending = s.pending := by
  unfold State.endFrame
  split
  · split <;> rfl
  all_goals rfl

@[simp] theorem State.endToHunt_pending (s : State) (i : Fin 8) (cur : CurrentFrame) (last : Stamp) (broken : Bool) :
    (s.endToHunt i cur last broken).pending = s.pending :=
  s.endFrame_pending i cur last false broken

@[simp] theorem State.frameByte_pending (s : State) (i : Fin 8) (cur : CurrentFrame) (b : Byte) (errored : Bool) :
    (s.frameByte i cur b errored).1.pending = s.pending := by
  unfold State.frameByte
  split
  · rfl
  · split
    · exact s.endFrame_pending i cur _ true false
    · split <;> rfl

/-- A line in HUNT begins a frame. -/
theorem State.beginInHunt_pending (s : State) (i : Fin 8) :
    (if s.lines[i].reception = .hunt then s.modLine i (Line.begin s.time) else s).pending = s.pending := by
  split <;> rfl

@[simp] theorem State.gapCharacter_pending (s : State) (i : Fin 8) (b : Byte) (errored : Bool) :
    (s.gapCharacter i b errored).pending = s.pending := by
  unfold State.gapCharacter
  dsimp only
  split
  · rw [State.frameByte_pending, State.beginInHunt_pending]
  · exact s.beginInHunt_pending i

@[simp] theorem State.markedInside_pending (s : State) (i : Fin 8) (cur : CurrentFrame) (b : Byte) (errored : Bool) :
    (s.markedInside i cur b errored).pending = s.pending := by
  unfold State.markedInside
  dsimp only
  split_ifs
  · rw [State.frameByte_pending, State.modLine_pending]
  · exact s.frameByte_pending i cur b errored
  · exact s.endToHunt_pending i cur _ false
  · rw [State.modLine_pending, State.endToHunt_pending]
  · rfl
  · exact s.frameByte_pending i cur b errored

@[simp] theorem State.markedCharacter_pending (s : State) (i : Fin 8) (b : Byte) (errored : Bool) :
    (s.markedCharacter i b errored).pending = s.pending := by
  unfold State.markedCharacter
  split
  · exact s.markedInside_pending i _ b errored
  · rfl
  · split <;> rfl
  · rfl

@[simp] theorem State.countedEnd_pending (s : State) (i : Fin 8) (cur : CurrentFrame) :
    (s.countedEnd i cur).pending = s.pending := by
  unfold State.countedEnd
  dsimp only
  split
  · rfl
  · split_ifs
    · exact s.endToHunt_pending i cur _ true
    · exact s.endToHunt_pending i cur _ false
    · exact s.endFrame_pending i cur _ true false
    · rfl

@[simp] theorem State.countedByte_pending (s : State) (i : Fin 8) (cur : CurrentFrame) (b : Byte) (errored : Bool) :
    (s.countedByte i cur b errored).pending = s.pending := by
  unfold State.countedByte
  dsimp only
  split
  · rw [State.countedEnd_pending, State.frameByte_pending]
  · exact s.frameByte_pending i _ b errored

@[simp] theorem State.countedCharacter_pending (s : State) (i : Fin 8) (b : Byte) (errored : Bool) :
    (s.countedCharacter i b errored).pending = s.pending := by
  unfold State.countedCharacter
  split
  · rfl
  · dsimp only
    split
    · rw [State.countedByte_pending, State.beginInHunt_pending]
    · exact s.beginInHunt_pending i

@[simp] theorem State.character_pending (s : State) (i : Fin 8) (b : Byte) (errored : Bool) :
    (s.character i b errored).pending = s.pending := by
  unfold State.character
  split
  · exact s.gapCharacter_pending i b errored
  · exact s.markedCharacter_pending i b errored
  · exact s.countedCharacter_pending i b errored

@[simp] theorem State.endLineEvent_pending (old s : State) (i : Fin 8) :
    (State.endLineEvent old s i).pending = s.pending :=
  State.conclude_pending old _

@[simp] theorem State.completeCharacter_pending (i : Fin 8) (bits : Byte) (parityBit stopHigh : Bool) (s : State) :
    (s.completeCharacter i bits parityBit stopHigh).pending = s.pending := by
  unfold State.completeCharacter
  rw [State.endLineEvent_pending, State.character_pending, State.modLine_pending]

@[simp] theorem State.idleExpires_pending (i : Fin 8) (s : State) : (s.idleExpires i).pending = s.pending := by
  unfold State.idleExpires
  rw [State.endLineEvent_pending]
  split
  · exact State.endToHunt_pending _ i _ _ _
  all_goals rfl

theorem State.paced_pending (s : State) (i : Fin 8) {event : State → State}
    (keeps : ∀ u : State, (event u).pending = u.pending) : (s.paced i event).pending = s.pending := by
  unfold State.paced
  split
  · exact keeps s
  · exact (keeps _).trans (s.classify_pending i)

/-! ### Units and erases end, and the scan finishes -/

@[simp] theorem State.recheck_pending (s : State) (c : Commit) : (s.recheck c).pending = s.pending := by
  unfold State.recheck
  split
  · rfl
  · exact (s.reserve_same _ c).pending

@[simp] theorem State.unitBoundary_pending (s : State) (k : Fin 4) (c : Commit) (p : Programming) :
    (s.unitBoundary k c p).pending = s.pending := by
  unfold State.unitBoundary
  split
  · rfl
  · split
    · rfl
    · exact (s.startRecordUnit_same _ c p).pending

@[simp] theorem State.continueRecord_pending (s : State) (k : Fin 4) (c : Commit) (p : Programming) :
    (s.continueRecord k c p).pending = s.pending := by
  unfold State.continueRecord State.whenServed
  split
  · exact s.unitBoundary_pending k c p
  · rfl

@[simp] theorem State.resumeCommit_pending (s : State) : s.resumeCommit.pending = s.pending := by
  unfold State.resumeCommit
  split
  · split
    · split
      · exact s.unitBoundary_pending _ _ _
      · exact s.recheck_pending _
    · rfl
  · rfl

@[simp] theorem State.retain_pending (s : State) (k : Fin 4) (c : Commit) (p : Programming) :
    (s.retain k c p).pending = s.pending := by
  unfold State.retain
  split <;> rfl

@[simp] theorem State.cancelMarked_pending (s : State) (k : Fin 4) (c : Commit) (p : Programming) :
    (s.cancelMarked k c p).pending = s.pending :=
  State.abandon_pending _ k .cancelled

@[simp] theorem State.commitFails_pending (s : State) (k : Fin 4) (op : ProgramOp) (p : Programming) :
    (s.commitFails k op p).pending = s.pending := by
  unfold State.commitFails
  split
  · rfl
  · rw [State.endCommit_pending]
    split_ifs
    · exact State.abandon_pending _ k .cancelled
    · exact State.abandon_pending _ k .storeFault
    · rfl

@[simp] theorem State.unitPassed_pending (s : State) (op : ProgramOp) : (s.unitPassed op).pending = s.pending := by
  unfold State.unitPassed
  split
  next c _ _ =>
    split
    next => exact State.recheck_pending _ _
    next p k _ _ =>
      split
      · exact s.continueRecord_pending k c _
      · exact s.retain_pending k c p
      · exact s.cancelMarked_pending k c p
    next => rfl
  next => rfl

@[simp] theorem State.unitFailed_pending (s : State) (op : ProgramOp) : (s.unitFailed op).pending = s.pending := by
  unfold State.unitFailed
  split
  · split
    · exact State.recheck_pending _ _
    · exact s.commitFails_pending _ op _
    · rfl
  · rfl

@[simp] theorem State.eraseOver_pending (s : State) (e : EraseOp) : (s.eraseOver e).pending = s.pending := by
  unfold State.eraseOver
  split
  · exact s.recheck_pending _
  · rfl

@[simp] theorem State.endErase_pending (s : State) (e : EraseOp) (passed : Bool) :
    (s.endErase e passed).pending = s.pending := by
  unfold State.endErase
  dsimp only
  split
  · exact State.eraseOver_pending _ e
  · exact State.eraseOver_pending _ e

@[simp] theorem State.endRead_pending (s : State) : s.endRead.pending = s.pending :=
  (State.arbitrate_pending _).trans (State.resumeCommit_pending _)

@[simp] theorem State.finishScan_pending (s : State) : s.finishScan.pending = s.pending := by
  unfold State.finishScan
  rw [State.arbitrate_pending, State.notify_pending]

/-! ### Resets -/

@[simp] theorem State.restart_pending (s : State) : s.restart.pending = s.pending := by
  obtain ⟨-, -, -, same, -⟩ := s.restart_kept
  exact same

/-! ### Requests -/

theorem State.answer_pending (s : State) (q : Req) (halt : Bool) {body : State → State × Answer}
    (keeps : ∀ u : State, (body u).1.pending = u.pending) : (s.answer q halt body).pending = s.pending := by
  unfold State.answer
  split
  · exact keeps _
  · exact keeps _

theorem State.request_pending (s : State) (q : Req) {run : State → State}
    (keeps : ∀ u : State, (run u).pending = u.pending) : (s.request q run).pending = s.pending := by
  unfold State.request
  split
  · exact keeps s
  · dsimp only
    split
    · exact keeps _
    · rfl

theorem State.serve_pending (s : State) (i : Instr) {body : State → State × Answer}
    (keeps : ∀ u : State, (body u).1.pending = u.pending) : (s.serve i body).pending = s.pending :=
  s.request_pending (reqOf i) fun u => u.answer_pending (reqOf i) false keeps

theorem State.serveRead_pending (s : State) (i : Instr) (check : State → Except Result ReadJob) :
    (s.serveRead i check).pending = s.pending := by
  refine s.request_pending (reqOf i) fun u => ?_
  split
  · rfl
  · exact u.answer_pending (reqOf i) false fun _ => rfl

theorem State.release_pending (s : State) (i : Fin 8) (n : Nat) : (s.release i n).pending = s.pending := by
  unfold State.release
  rw [State.announce_pending, State.modLine_pending, State.evalPressure_pending]

/-! ### The bodies of the requests -/

theorem setNoticeMaskBody_pending (kinds : Half) (lines : Byte) (s : State) :
    (setNoticeMaskBody kinds lines s).1.pending = s.pending := by
  unfold setNoticeMaskBody
  split <;> rfl

theorem configureLineBody_pending (line : Byte) (cfg : LineArg) (s : State) :
    (configureLineBody line cfg s).1.pending = s.pending := by
  unfold configureLineBody
  split
  · rfl
  · split
    · rfl
    · split
      · rfl
      · rw [State.conclude_pending, State.configure_pending]

theorem startLineBody_pending (line : Byte) (pinHigh : Bool) (s : State) :
    (startLineBody line pinHigh s).1.pending = s.pending := by
  unfold startLineBody
  split
  · rfl
  · split
    · rfl
    · rw [State.conclude_pending, State.modLine_pending]

theorem stopLineBody_pending (line : Byte) (s : State) : (stopLineBody line s).1.pending = s.pending := by
  unfold stopLineBody
  split
  · rfl
  · split
    · rfl
    · rw [State.conclude_pending, State.setLine_pending]

theorem getLineCountsBody_pending (line clear : Byte) (s : State) :
    (getLineCountsBody line clear s).1.pending = s.pending := by
  unfold getLineCountsBody
  split
  · dsimp only
    split <;> rfl
  · rfl

theorem setPoolMarkBody_pending (mark : Half) (s : State) : (setPoolMarkBody mark s).1.pending = s.pending := by
  unfold setPoolMarkBody
  split
  · rfl
  · rw [State.announce_pending, State.setPressure_pending]

theorem writeEntryBody_pending (entry : Byte) (body : EntryDef) (s : State) :
    (writeEntryBody entry body s).1.pending = s.pending := by
  unfold writeEntryBody
  split
  · rfl
  · split <;> rfl

theorem readEntryBody_pending (entry : Byte) (s : State) : (readEntryBody entry s).1.pending = s.pending := by
  unfold readEntryBody
  split <;> rfl

theorem clearEntryBody_pending (entry : Byte) (s : State) : (clearEntryBody entry s).1.pending = s.pending := by
  unfold clearEntryBody
  split <;> rfl

theorem forceTriggerBody_pending (entry : Byte) (s : State) : (forceTriggerBody entry s).1.pending = s.pending := by
  unfold forceTriggerBody
  split
  · rfl
  · split
    · split
      next => rfl
      next opened => rw [State.settleEvent_pending, State.openIncident_pending opened]
    · rfl

theorem closeIncidentBody_pending (id : Half) (s : State) : (closeIncidentBody id s).1.pending = s.pending := by
  unfold closeIncidentBody
  split
  · rfl
  · split
    · rw [State.settleEvent_pending, State.closeIncident_pending]
    · rfl

theorem cancelIncidentBody_pending (id : Half) (s : State) : (cancelIncidentBody id s).1.pending = s.pending := by
  unfold cancelIncidentBody
  split
  · rfl
  · split
    · rfl
    · split
      · rfl
      · rw [State.settleEvent_pending, State.abandon_pending]

theorem listFramesBody_pending (line list present : Byte) (after : Half) (max : Byte) (s : State) :
    (listFramesBody line list present after max s).1.pending = s.pending := by
  unfold listFramesBody
  split
  · rfl
  · split
    · rfl
    · split <;> rfl

theorem readFrameBody_pending (line : Byte) (seq : Half) (s : State) :
    (readFrameBody line seq s).1.pending = s.pending := by
  unfold readFrameBody
  split
  · rfl
  · split <;> rfl

theorem takeFramesBody_pending (line count : Byte) (s : State) :
    (takeFramesBody line count s).1.pending = s.pending := by
  unfold takeFramesBody
  split
  · split <;> rfl
  · rfl

theorem releaseFramesBody_pending (line : Byte) (seq : Half) (s : State) :
    (releaseFramesBody line seq s).1.pending = s.pending := by
  unfold releaseFramesBody
  split
  · rfl
  · split
    · rfl
    · split
      · rfl
      · exact s.release_pending _ _

theorem setStorePolicyBody_pending (policy : Byte) (s : State) :
    (setStorePolicyBody policy s).1.pending = s.pending := by
  unfold setStorePolicyBody
  split
  · rfl
  · split
    · rfl
    · exact State.arbitrate_pending _

theorem State.protect_pending (s : State) (x : Fin 64) (level : Protection) :
    (s.protect x level).1.pending = s.pending := by
  unfold State.protect
  dsimp only
  split_ifs
  · rfl
  · rfl
  · rfl
  · rw [State.arbitrate_pending, State.clearFull_pending, State.modSector_pending]
  · rw [State.arbitrate_pending, State.modSector_pending]

theorem setProtectionBody_pending (sector level : Byte) (s : State) :
    (setProtectionBody sector level s).1.pending = s.pending := by
  unfold setProtectionBody
  split
  · exact s.protect_pending _ _
  · rfl

theorem State.eraseSector_pending (s : State) (x : Fin 64) : (s.eraseSector x).1.pending = s.pending := by
  unfold State.eraseSector
  dsimp only
  split_ifs
  · rfl
  · rfl
  · rfl
  · rfl
  · rfl
  · exact (State.arbitrate_pending _).trans (s.addErase_pending x)

theorem eraseSectorBody_pending (sector : Byte) (s : State) : (eraseSectorBody sector s).1.pending = s.pending := by
  unfold eraseSectorBody
  split
  · exact s.eraseSector_pending _
  · rfl

theorem listRecordsBody_pending (first : Word) (filter max : Byte) (s : State) :
    (listRecordsBody first filter max s).1.pending = s.pending := by
  unfold listRecordsBody
  split
  · rfl
  · split <;> rfl

theorem discardRecordBody_pending (serial : Word) (s : State) :
    (discardRecordBody serial s).1.pending = s.pending := by
  unfold discardRecordBody
  split
  · rfl
  · split
    · rfl
    · split
      · rfl
      · split
        · rfl
        · exact State.arbitrate_pending _

end Sys2Proof.Machine
end

section
/-! PROOFS. Steps: the command at the front, its answer, and runs that go on (O1, O3). -/

namespace Sys2Proof.Machine

/-! ### The commands -/

/-- A command's outcome is a next state whose queue of waiting commands is the one before. -/
def KeepsQueue (s : State) (o : Host.Outcome State Fault Refusal) : Prop := ∃ t, o = .next t ∧ t.pending = s.pending

theorem KeepsQueue.next {s t : State} (same : t.pending = s.pending) : KeepsQueue s (.next t) := ⟨t, rfl, same⟩

theorem KeepsQueue.refl (s : State) : KeepsQueue s (.next s) := .next rfl

theorem KeepsQueue.serve {s : State} (i : Instr) {body : State → State × Answer}
    (keeps : ∀ u : State, (body u).1.pending = u.pending) : KeepsQueue s (.next (s.serve i body)) :=
  .next (s.serve_pending i keeps)

theorem execCharacterCompletion_keepsQueue (i : Fin 8) (bits : Byte) (parityBit stopHigh : Bool) (s : State) :
    KeepsQueue s (execCharacterCompletion i bits parityBit stopHigh s) := by
  unfold execCharacterCompletion
  dsimp only
  split
  · exact .next (s.paced_pending i (State.completeCharacter_pending i bits parityBit stopHigh))
  · exact .refl s

theorem execIdleTimerExpiry_keepsQueue (i : Fin 8) (s : State) : KeepsQueue s (execIdleTimerExpiry i s) := by
  unfold execIdleTimerExpiry
  dsimp only
  split
  · exact .refl s
  · split
    · exact .next (State.paced_pending _ i (State.idleExpires_pending i))
    · exact .refl s

theorem execTrigInEdgeAccepted_keepsQueue (s : State) : KeepsQueue s (execTrigInEdgeAccepted s) := by
  unfold execTrigInEdgeAccepted
  split
  · exact .refl s
  · refine .next ?_
    rw [State.settleEvent_pending, State.fire_pending, State.advanceTo_pending]

theorem execHoldoffExpiry_keepsQueue (e : Fin 16) (s : State) : KeepsQueue s (execHoldoffExpiry e s) := by
  unfold execHoldoffExpiry
  split
  · exact .refl s
  · exact .next rfl

theorem execPostTimerExpiry_keepsQueue (k : Fin 4) (s : State) : KeepsQueue s (execPostTimerExpiry k s) := by
  unfold execPostTimerExpiry
  split
  · exact .refl s
  · refine .next ?_
    rw [State.settleEvent_pending, State.closeIncident_pending, State.advanceTo_pending]

theorem execHostByteReceived_keepsQueue (byte : Option Byte) (s : State) :
    KeepsQueue s (execHostByteReceived byte s) := by
  unfold execHostByteReceived
  dsimp only
  split <;> exact .next rfl

theorem execInterByteTimeout_keepsQueue (s : State) : KeepsQueue s (execInterByteTimeout s) := by
  unfold execInterByteTimeout
  split
  · exact .refl s
  all_goals exact .next rfl

theorem execTxFrameEnd_keepsQueue (s : State) : KeepsQueue s (execTxFrameEnd s) := by
  unfold execTxFrameEnd
  split
  · exact .next s.restart_pending
  · split
    · exact .refl s
    · exact .next rfl

theorem execProgramUnitEnd_keepsQueue (cells : List Byte) (s : State) : KeepsQueue s (execProgramUnitEnd cells s) := by
  unfold execProgramUnitEnd
  split
  · split
    · refine .next ?_
      rw [State.settleEvent_pending]
      split
      · exact State.unitPassed_pending _ _
      · exact State.unitFailed_pending _ _
    · exact .refl s
  · exact .refl s

theorem execProgramUnitTimeout_keepsQueue (cells : List Byte) (s : State) :
    KeepsQueue s (execProgramUnitTimeout cells s) := by
  unfold execProgramUnitTimeout
  split
  · refine .next ?_
    rw [State.settleEvent_pending, State.unitFailed_pending, State.leaveBytes_pending, State.advanceTo_pending]
  · exact .refl s

theorem execEraseEnd_keepsQueue (blank : Bool) (s : State) : KeepsQueue s (execEraseEnd blank s) := by
  unfold execEraseEnd
  split
  · split
    · split
      · refine .next ?_
        rw [State.arbitrate_pending, State.endErase_pending]
      · exact .refl s
    · exact .refl s
  · exact .refl s

theorem execEraseTimeout_keepsQueue (s : State) : KeepsQueue s (execEraseTimeout s) := by
  unfold execEraseTimeout
  split
  · split
    · refine .next ?_
      rw [State.arbitrate_pending, State.endErase_pending, State.advanceTo_pending]
    · exact .refl s
  · exact .refl s

theorem execArrayReadDone_keepsQueue (s : State) : KeepsQueue s (execArrayReadDone s) := by
  unfold execArrayReadDone
  split
  · split
    · exact .refl s
    · exact .next (s.answer_pending _ false State.endRead_pending)
  · exact .refl s

/-- Every command answers a next state and leaves the queue of waiting commands as it was. -/
theorem exec_keepsQueue (c : Instr) (s : State) : KeepsQueue s (exec c s) := by
  cases c
  case hardReset straps => exact .next (s.hardReset_pending straps)
  case restartTakesEffect =>
    simp only [exec, execRestartTakesEffect]
    split
    · exact .next s.restart_pending
    · exact .refl s
  case characterCompletion i bits parityBit stopHigh =>
    exact execCharacterCompletion_keepsQueue i bits parityBit stopHigh s
  case idleTimerExpiry i => exact execIdleTimerExpiry_keepsQueue i s
  case classification i => exact .next (s.classify_pending i)
  case trigInRisingEdge => exact .next rfl
  case trigInEdgeAccepted => exact execTrigInEdgeAccepted_keepsQueue s
  case holdoffExpiry e => exact execHoldoffExpiry_keepsQueue e s
  case postTimerExpiry k => exact execPostTimerExpiry_keepsQueue k s
  case hostByteReceived byte => exact execHostByteReceived_keepsQueue byte s
  case interByteTimeout => exact execInterByteTimeout_keepsQueue s
  case txFrameEnd => exact execTxFrameEnd_keepsQueue s
  case programUnitEnd cells => exact execProgramUnitEnd_keepsQueue cells s
  case programUnitTimeout cells => exact execProgramUnitTimeout_keepsQueue cells s
  case eraseEnd blank => exact execEraseEnd_keepsQueue blank s
  case eraseTimeout => exact execEraseTimeout_keepsQueue s
  case arrayReadDone => exact execArrayReadDone_keepsQueue s
  case scanFinish =>
    simp only [exec, execScanFinish]
    split
    · exact .next s.finishScan_pending
    · exact .refl s
  case unknownRequest tag payload =>
    simp only [exec, execUnknownRequest]
    split
    · exact .refl s
    · exact .serve _ fun _ => rfl
  case identify => exact .serve _ fun _ => rfl
  case getStatus => exact .serve _ fun _ => rfl
  case setTime tag time => exact .serve _ fun _ => rfl
  case setNoticeMask tag kinds lines => exact .serve _ (setNoticeMaskBody_pending kinds lines)
  case clearFaults => exact .serve _ fun _ => rfl
  case restart tag => exact .next (s.request_pending _ fun u => u.answer_pending _ true fun _ => rfl)
  case configureLine tag line cfg => exact .serve _ (configureLineBody_pending line cfg)
  case startLine tag line pinHigh => exact .serve _ (startLineBody_pending line pinHigh)
  case stopLine tag line => exact .serve _ (stopLineBody_pending line)
  case getLineCounts tag line clear => exact .serve _ (getLineCountsBody_pending line clear)
  case setPoolMark tag mark => exact .serve _ (setPoolMarkBody_pending mark)
  case writeEntry tag entry body => exact .serve _ (writeEntryBody_pending entry body)
  case readEntry tag entry => exact .serve _ (readEntryBody_pending entry)
  case clearEntry tag entry => exact .serve _ (clearEntryBody_pending entry)
  case forceTrigger tag entry => exact .serve _ (forceTriggerBody_pending entry)
  case listIncidents => exact .serve _ fun _ => rfl
  case closeIncident tag id => exact .serve _ (closeIncidentBody_pending id)
  case cancelIncident tag id => exact .serve _ (cancelIncidentBody_pending id)
  case listFrames tag line list present after max =>
    exact .serve _ (listFramesBody_pending line list present after max)
  case readFrame tag line seq => exact .serve _ (readFrameBody_pending line seq)
  case takeFrames tag line count => exact .serve _ (takeFramesBody_pending line count)
  case releaseFrames tag line seq => exact .serve _ (releaseFramesBody_pending line seq)
  case getStoreStatus => exact .serve _ fun _ => rfl
  case setStorePolicy tag policy => exact .serve _ (setStorePolicyBody_pending policy)
  case setProtection tag sector level => exact .serve _ (setProtectionBody_pending sector level)
  case eraseSector tag sector => exact .serve _ (eraseSectorBody_pending sector)
  case listRecords tag first filter max => exact .serve _ (listRecordsBody_pending first filter max)
  case readRecord tag serial first => exact .next (s.serveRead_pending _ _)
  case verifyRecord tag serial => exact .next (s.serveRead_pending _ _)
  case discardRecord tag serial => exact .serve _ (discardRecordBody_pending serial)
  case startBit i lowAtMid =>
    simp only [exec, execStartBit]
    split
    · exact .next rfl
    · exact .refl s
  case pinSampledHigh i =>
    simp only [exec, execPinSampledHigh]
    split
    · exact .next rfl
    · exact .refl s

/-! ### Steps and runs -/

theorem step_front {c : Instr} {s : State} {rest : List Instr} (front : s.pending = c :: rest) :
    step s = exec c { s with pending := rest } := by
  unfold step
  rw [front]

/-- A step answers a next state: the passing of time, or the front command's. -/
theorem step_answers (s : State) : ∃ t, step s = .next t := by
  cases queue : s.pending with
  | nil => exact ⟨s.idleTick, step_empty queue⟩
  | cons c rest =>
    obtain ⟨t, answers, -⟩ := exec_keepsQueue c { s with pending := rest }
    exact ⟨t, (step_front queue).trans answers⟩

/-- A run goes on from the state its first step answers. -/
theorem run_succ {M : Host.Core} {s t : M.State} (first : M.step s = .next t) (n : Nat) :
    M.run (n + 1) s = M.run n t := by
  rw [Host.Core.run, first]

theorem safe_of_step_answers (answers : ∀ s : State, ∃ t, step s = .next t) (s : State) : Safe s := by
  intro n
  induction n generalizing s with
  | zero => exact ⟨s, rfl⟩
  | succ n ih =>
    obtain ⟨t, first⟩ := answers s
    obtain ⟨u, run⟩ := ih t
    exact ⟨u, (run_succ (M := Sys2Proof.core) first n).trans run⟩

/-! ### The statements -/

/-- Settles O1: the step of a queue that is not empty. -/
theorem stepRunsTheFrontCommand : Obligations.StepRunsTheFrontCommand := fun _ _ _ => step_front

/-- Settles O3: what every command keeps, and induction on the number of steps. -/
theorem everyCommandCompletes : Obligations.EveryCommandCompletes :=
  ⟨exec_keepsQueue, safe_of_step_answers step_answers⟩

end Sys2Proof.Machine
end
